-- ==== Sys2Proof/Word.lean ====
section
/-! DEFINITION. The words of the Packet frame parser: bytes, bus words, selectors, and the forms in which an
operation reaches the block (spec/30_encoding.md, spec/20_memory.md rule R62). -/

namespace Sys2Proof

/-- One byte of a frame (R11, R13). -/
abbrev Byte := BitVec 8

/-- One bus word: WDATA, RDATA and every register are 32 bits (R29, R78). -/
abbrev Word := BitVec 32

/-- A byte address in the instance's 64 KiB window (R50). -/
abbrev Addr := BitVec 16

/-- The 19-bit transaction selector HT: ADDR in bits 15:0, WE in bit 16, SIZE in bits 18:17 (R78). -/
abbrev Selector := BitVec 19

/-- The two access widths the bus supports (R57). -/
inductive Width where
  | byte
  | word
  deriving DecidableEq, Repr

/-- The rows of the opcode table whose format is ENGINE. The table gives them no selecting bits, so they are names
(DESIGN CHOICE, log 10). -/
inductive EngineRow where
  | decode
  | decEth
  | decIpv4
  | decTcp
  | decUdp
  | complete
  deriving DecidableEq, Repr

/-- An operation as it reaches the block, one constructor per format of the opcode table: a host transaction (HT with
its WDATA, R78), a protocol byte (PROTO8, R77), or an engine row. -/
inductive InstrWord where
  | ht (sel : Selector) (wdata : Word)
  | proto8 (protocol : Byte)
  | engine (row : EngineRow)
  deriving DecidableEq, Repr

/-- One event of an instance's total order (R62): an operation, or a hardware reset (R190). -/
inductive Event where
  | op (w : InstrWord)
  | hardwareReset
  deriving DecidableEq, Repr

end Sys2Proof
end

