-- ==== Sys2Proof/Config.lean ====
section
/-! DEFINITION. What an implementation fixes, and the free value: the parameters of rule R9 and the draw of an
unwritten frame-buffer byte (rule R23). -/

namespace Sys2Proof

/-- The parameters of one instance (R9). `maxFrameStep` gives MAX_FRAME as one of the seven powers of two the rule
allows; `drawStream` is the model's own: it tells apart the draws of different instances (log 11). -/
structure Params where
  maxFrameStep : Fin 7
  drawStream   : Nat
  deriving DecidableEq, Repr

/-- k with MAX_FRAME = 2^k (R84). -/
def Params.maxFrameBits (p : Params) : Nat := 6 + p.maxFrameStep.val

/-- MAX_FRAME, the frame buffer's capacity in bytes: a power of two from 64 to 4096 (R9). -/
def Params.maxFrame (p : Params) : Nat := 2 ^ p.maxFrameBits

/-- The defaults of R9: MAX_FRAME = 2048. -/
def Params.default : Params := ⟨5, 0⟩

/-- The parameters of a platform (R9): one MAX_FRAME for its instances, and N_INSTANCES, which is at least 1. -/
structure PlatformParams where
  maxFrameStep  : Fin 7
  moreInstances : Nat
  deriving DecidableEq, Repr

/-- N_INSTANCES (R9). -/
def PlatformParams.nInstances (p : PlatformParams) : Nat := p.moreInstances + 1

/-- The defaults of R9: MAX_FRAME = 2048, N_INSTANCES = 1. -/
def PlatformParams.default : PlatformParams := ⟨5, 0⟩

/-- The parameters of instance `i`: the platform's MAX_FRAME and a stream of draws of its own (log 11). -/
def PlatformParams.instanceParams (p : PlatformParams) (i : Nat) : Params := ⟨p.maxFrameStep, i⟩

namespace Config

/-- The draw that the k-th read of an unwritten frame-buffer byte returns, in one stream of draws (R23, R194). It has no
body: nothing can be proved about its value (free value, log 7). -/
opaque drawByte : (stream : Nat) → (k : Nat) → Byte

/-- First address of the register window (R51). -/
def regBase : Nat := 0x1000

/-- First address past the register window (R51). -/
def regEnd : Nat := 0x1080

/-- How far the draw counter advances in one engine evaluation. Every frame offset is below 2^16 (R10), so the offsets
of one evaluation never use an index of the next (log 7). -/
def engineDraws : Nat := 65536

end Config

end Sys2Proof
end

