-- ==== Sys2Proof/Syntax.lean ====
section
/-! DEFINITION. The instruction type: one constructor per row of spec/opcode_table.json, in the table's order. An
operand is what the rule's "Operands" line names; bits a rule says are ignored are no operand. -/

namespace Sys2Proof

/-- The operations of the block. The nine engine rows come first, then the forty-two host transactions. -/
inductive Instr where
  /-- DECODE (R120). -/
  | decode
  /-- DEC_ETH (R100). -/
  | decEth
  /-- DEC_IPV4 (R101). -/
  | decIpv4
  /-- DISPATCH_TCP (R124), selected by protocol byte 6. -/
  | dispatchTcp
  /-- DISPATCH_UDP (R125), selected by protocol byte 17. -/
  | dispatchUdp
  /-- DISPATCH_UNKNOWN (R126), selected by every other protocol byte. -/
  | dispatchUnknown (protocol : Byte)
  /-- DEC_TCP (R102). -/
  | decTcp
  /-- DEC_UDP (R103). -/
  | decUdp
  /-- ENGINE_COMPLETE (R129). -/
  | engineComplete
  /-- HALF_REFUSED (R158): SIZE = 01. -/
  | halfRefused (we : Bool) (addr : Addr)
  /-- SIZE11_REFUSED (R158): SIZE = 11. -/
  | size11Refused (we : Bool) (addr : Addr)
  /-- BUF_WR8 (R140). -/
  | bufWr8 (addr : Addr) (data : Byte)
  /-- BUF_WR32 (R141). -/
  | bufWr32 (addr : Addr) (data : Word)
  /-- BUF_RD8 (R142). -/
  | bufRd8 (addr : Addr)
  /-- BUF_RD32 (R143). -/
  | bufRd32 (addr : Addr)
  /-- REG_BYTE_RD (R159). -/
  | regByteRd (addr : Addr)
  /-- REG_BYTE_WR (R160). -/
  | regByteWr (addr : Addr) (data : Byte)
  /-- CTRL_SRST (R146): WDATA[0] and WDATA[2] are ignored. -/
  | ctrlSrst
  /-- CTRL_START (R145): the operand is WDATA[2]. -/
  | ctrlStart (irqEn : Bool)
  /-- CTRL_WR (R144): the operand is WDATA[2]. -/
  | ctrlWr (irqEn : Bool)
  /-- CTRL_RD (R147). -/
  | ctrlRd
  /-- STATUS_RD (R148). -/
  | statusRd
  /-- STATUS_WR (R155). -/
  | statusWr (data : Word)
  /-- LEN_WR (R149): the operand is WDATA[15:0]. -/
  | lenWr (len : BitVec 16)
  /-- LEN_RD (R150). -/
  | lenRd
  /-- TS_LO_WR (R151). -/
  | tsLoWr (data : Word)
  /-- TS_LO_RD (R153). -/
  | tsLoRd
  /-- TS_HI_WR (R152). -/
  | tsHiWr (data : Word)
  /-- TS_HI_RD (R153). -/
  | tsHiRd
  /-- RES_TS_LO_RD (R154, R34). -/
  | resTsLoRd
  /-- RES_TS_HI_RD (R154, R34). -/
  | resTsHiRd
  /-- DST_MAC_HI_RD (R154, R35). -/
  | dstMacHiRd
  /-- DST_MAC_LO_RD (R154, R35). -/
  | dstMacLoRd
  /-- SRC_MAC_HI_RD (R154, R36). -/
  | srcMacHiRd
  /-- SRC_MAC_LO_RD (R154, R36). -/
  | srcMacLoRd
  /-- IP_INFO_RD (R154, R37). -/
  | ipInfoRd
  /-- SRC_IP_RD (R154, R38). -/
  | srcIpRd
  /-- DST_IP_RD (R154, R38). -/
  | dstIpRd
  /-- L4_INFO_RD (R154, R39). -/
  | l4InfoRd
  /-- PORTS_RD (R154, R40). -/
  | portsRd
  /-- TCP_SEQ_RD (R154, R41). -/
  | tcpSeqRd
  /-- TCP_ACK_RD (R154, R41). -/
  | tcpAckRd
  /-- UDP_LEN_CSUM_RD (R154, R42). -/
  | udpLenCsumRd
  /-- REGION0_RD (R154, R43). -/
  | region0Rd
  /-- REGION1_RD (R154, R44). -/
  | region1Rd
  /-- RES_WR, the row of 0x1020 to 0x103C (R155). -/
  | resWrLow (addr : Addr) (data : Word)
  /-- RES_WR, the row of 0x1040 to 0x105C (R155). -/
  | resWrHigh (addr : Addr) (data : Word)
  /-- RSVD_RD (R156). -/
  | rsvdRd (addr : Addr)
  /-- RSVD_WR (R157). -/
  | rsvdWr (addr : Addr) (data : Word)
  /-- UNMAPPED_RD (R156). -/
  | unmappedRd (width : Width) (addr : Addr)
  /-- UNMAPPED_WR (R157). -/
  | unmappedWr (width : Width) (addr : Addr) (data : Word)
  deriving DecidableEq, Repr

end Sys2Proof
end

