-- ==== Sys2Proof/WellFormed.lean ====
section
/-! DEFINITION. Which instruction terms stand for a word of the block: the operand ranges the rows of
spec/opcode_table.json give, at the instance's MAX_FRAME. -/

namespace Sys2Proof

/-- The address lies in the frame buffer (R51). -/
def inBuffer (p : Params) (a : Addr) : Bool := decide (a.toNat < p.maxFrame)

/-- The address lies in the register window, 0x1000 to 0x107F (R51). -/
def inRegWindow (a : Addr) : Bool :=
  decide (Config.regBase ≤ a.toNat) && decide (a.toNat < Config.regEnd)

/-- The word at the address is a reserved register: 0x1014 to 0x101C or 0x1060 to 0x107C (R29). -/
def inReserved (a : Addr) : Bool :=
  (decide (0x1014 ≤ a.toNat) && decide (a.toNat < 0x1020)) ||
  (decide (0x1060 ≤ a.toNat) && decide (a.toNat < 0x1080))

/-- The address is unmapped (R51). -/
def isUnmapped (p : Params) (a : Addr) : Bool := !inBuffer p a && !inRegWindow a

/-- The operand ranges of each row. -/
def Instr.wellFormed (p : Params) : Instr → Bool
  | .decode => true
  | .decEth => true
  | .decIpv4 => true
  | .dispatchTcp => true
  | .dispatchUdp => true
  | .dispatchUnknown protocol => decide (protocol ≠ 6#8) && decide (protocol ≠ 17#8)
  | .decTcp => true
  | .decUdp => true
  | .engineComplete => true
  | .halfRefused _ _ => true
  | .size11Refused _ _ => true
  | .bufWr8 a _ => inBuffer p a
  | .bufWr32 a _ => inBuffer p a
  | .bufRd8 a => inBuffer p a
  | .bufRd32 a => inBuffer p a
  | .regByteRd a => inRegWindow a
  | .regByteWr a _ => inRegWindow a
  | .ctrlSrst => true
  | .ctrlStart _ => true
  | .ctrlWr _ => true
  | .ctrlRd => true
  | .statusRd => true
  | .statusWr _ => true
  | .lenWr _ => true
  | .lenRd => true
  | .tsLoWr _ => true
  | .tsLoRd => true
  | .tsHiWr _ => true
  | .tsHiRd => true
  | .resTsLoRd => true
  | .resTsHiRd => true
  | .dstMacHiRd => true
  | .dstMacLoRd => true
  | .srcMacHiRd => true
  | .srcMacLoRd => true
  | .ipInfoRd => true
  | .srcIpRd => true
  | .dstIpRd => true
  | .l4InfoRd => true
  | .portsRd => true
  | .tcpSeqRd => true
  | .tcpAckRd => true
  | .udpLenCsumRd => true
  | .region0Rd => true
  | .region1Rd => true
  | .resWrLow a _ => decide (0x1020 ≤ a.toNat) && decide (a.toNat < 0x1040)
  | .resWrHigh a _ => decide (0x1040 ≤ a.toNat) && decide (a.toNat < 0x1060)
  | .rsvdRd a => inReserved a
  | .rsvdWr a _ => inReserved a
  | .unmappedRd _ a => isUnmapped p a
  | .unmappedWr _ a _ => isUnmapped p a

end Sys2Proof
end

