-- ==== Sys2Proof/Decode.lean ====
section
/-! DEFINITION. The decoder (the rows of spec/opcode_table.json, first match in table order: rule R84), and after it the
encoder (rules R78, R82). -/

namespace Sys2Proof

/-- Why a word is no operation of the block. -/
inductive DecodeReject where
  /-- No row of the HT table matches. The table is total (R84), so this never happens. -/
  | noRow
  /-- A bit above HT[18:0], or above the word's own width, is set (R78). -/
  | selectorTooWide
  /-- No format of the table has this many bits. -/
  | noFormat
  deriving DecidableEq, Repr

/-! ### The fields of a selector (R78) -/

/-- HT[15:0]. -/
def selAddr (ht : Selector) : Addr := ht.extractLsb' 0 16

/-- HT[16]. -/
def selWe (ht : Selector) : Bool := ht.getLsbD 16

/-- HT[18:17]. -/
def selSize (ht : Selector) : BitVec 2 := ht.extractLsb' 17 2

/-- The width a legal SIZE code names: 00 is 8-bit, 10 is 32-bit (R78). -/
def selWidth (ht : Selector) : Width := if ht.getLsbD 18 then .word else .byte

/-- WDATA[2], the IRQ_EN bit of a CTRL write (R30). -/
def wdataIrqEn (wdata : Word) : Bool := wdata.getLsbD 2

/-! ### The rows -/

/-- One row of the table whose format is HT. `build` makes the instruction from HT and WDATA. -/
structure HtRow where
  mask : Selector
  pattern : Selector
  wdataMask : Word
  wdataPattern : Word
  build : Selector → Word → Instr

/-- A row without a WDATA pattern. -/
def htRow (mask pattern : Selector) (build : Selector → Word → Instr) : HtRow :=
  ⟨mask, pattern, 0#32, 0#32, build⟩

/-- A row of the register window that one register's address selects; ADDR[1:0] is ignored (R56). -/
def regRow (pattern : Selector) (build : Word → Instr) : HtRow :=
  htRow 0x7FFFC#19 pattern (fun _ wdata => build wdata)

/-- When a row matches (R84). -/
def HtRow.hits (r : HtRow) (ht : Selector) (wdata : Word) : Bool :=
  (ht &&& r.mask) == r.pattern && (wdata &&& r.wdataMask) == r.wdataPattern

/-- The mask of the four frame-buffer rows for MAX_FRAME = 2^k: SIZE, WE and ADDR[15:k] (R84). -/
def bufferMask (p : Params) : Selector := 0x7FFFF#19 <<< p.maxFrameBits

/-- Rows 1 to 8: refused sizes, the frame buffer, byte accesses to the register window. -/
def bufferRows (p : Params) : List HtRow :=
  [ htRow 0x60000#19 0x20000#19 (fun ht _ => .halfRefused (selWe ht) (selAddr ht)),
    htRow 0x60000#19 0x60000#19 (fun ht _ => .size11Refused (selWe ht) (selAddr ht)),
    htRow (bufferMask p) 0x10000#19 (fun ht wdata => .bufWr8 (selAddr ht) (wdata.extractLsb' 0 8)),
    htRow (bufferMask p) 0x50000#19 (fun ht wdata => .bufWr32 (selAddr ht) wdata),
    htRow (bufferMask p) 0x00000#19 (fun ht _ => .bufRd8 (selAddr ht)),
    htRow (bufferMask p) 0x40000#19 (fun ht _ => .bufRd32 (selAddr ht)),
    htRow 0x7FF80#19 0x01000#19 (fun ht _ => .regByteRd (selAddr ht)),
    htRow 0x7FF80#19 0x11000#19 (fun ht wdata => .regByteWr (selAddr ht) (wdata.extractLsb' 0 8)) ]

/-- Rows 9 to 20: CTRL, STATUS, FRAME_LEN and TS. -/
def controlRows : List HtRow :=
  [ ⟨0x7FFFC#19, 0x51000#19, 0x2#32, 0x2#32, fun _ _ => .ctrlSrst⟩,
    ⟨0x7FFFC#19, 0x51000#19, 0x3#32, 0x1#32, fun _ wdata => .ctrlStart (wdataIrqEn wdata)⟩,
    ⟨0x7FFFC#19, 0x51000#19, 0x3#32, 0x0#32, fun _ wdata => .ctrlWr (wdataIrqEn wdata)⟩,
    regRow 0x41000#19 (fun _ => .ctrlRd),
    regRow 0x41004#19 (fun _ => .statusRd),
    regRow 0x51004#19 (fun wdata => .statusWr wdata),
    regRow 0x51008#19 (fun wdata => .lenWr (wdata.extractLsb' 0 16)),
    regRow 0x41008#19 (fun _ => .lenRd),
    regRow 0x5100C#19 (fun wdata => .tsLoWr wdata),
    regRow 0x4100C#19 (fun _ => .tsLoRd),
    regRow 0x51010#19 (fun wdata => .tsHiWr wdata),
    regRow 0x41010#19 (fun _ => .tsHiRd) ]

/-- Rows 21 to 36: the sixteen result registers. -/
def resultRows : List HtRow :=
  [ regRow 0x41020#19 (fun _ => .resTsLoRd),
    regRow 0x41024#19 (fun _ => .resTsHiRd),
    regRow 0x41028#19 (fun _ => .dstMacHiRd),
    regRow 0x4102C#19 (fun _ => .dstMacLoRd),
    regRow 0x41030#19 (fun _ => .srcMacHiRd),
    regRow 0x41034#19 (fun _ => .srcMacLoRd),
    regRow 0x41038#19 (fun _ => .ipInfoRd),
    regRow 0x4103C#19 (fun _ => .srcIpRd),
    regRow 0x41040#19 (fun _ => .dstIpRd),
    regRow 0x41044#19 (fun _ => .l4InfoRd),
    regRow 0x41048#19 (fun _ => .portsRd),
    regRow 0x4104C#19 (fun _ => .tcpSeqRd),
    regRow 0x41050#19 (fun _ => .tcpAckRd),
    regRow 0x41054#19 (fun _ => .udpLenCsumRd),
    regRow 0x41058#19 (fun _ => .region0Rd),
    regRow 0x4105C#19 (fun _ => .region1Rd) ]

/-- Rows 37 to 42: read-only, reserved and unmapped addresses. -/
def inertRows : List HtRow :=
  [ htRow 0x7FFE0#19 0x51020#19 (fun ht wdata => .resWrLow (selAddr ht) wdata),
    htRow 0x7FFE0#19 0x51040#19 (fun ht wdata => .resWrHigh (selAddr ht) wdata),
    htRow 0x7FF80#19 0x41000#19 (fun ht _ => .rsvdRd (selAddr ht)),
    htRow 0x7FF80#19 0x51000#19 (fun ht wdata => .rsvdWr (selAddr ht) wdata),
    htRow 0x10000#19 0x00000#19 (fun ht _ => .unmappedRd (selWidth ht) (selAddr ht)),
    htRow 0x10000#19 0x10000#19 (fun ht wdata => .unmappedWr (selWidth ht) (selAddr ht) wdata) ]

/-- The forty-two HT rows in table order (R84). -/
def htRows (p : Params) : List HtRow :=
  bufferRows p ++ controlRows ++ resultRows ++ inertRows

/-! ### The decoder -/

/-- The first row that matches wins (R84). -/
def decodeRows : List HtRow → Selector → Word → Except DecodeReject Instr
  | [], _, _ => .error .noRow
  | r :: rows, ht, wdata =>
    if r.hits ht wdata then .ok (r.build ht wdata) else decodeRows rows ht wdata

/-- A host transaction (R84). -/
def decodeHt (p : Params) (ht : Selector) (wdata : Word) : Except DecodeReject Instr :=
  decodeRows (htRows p) ht wdata

/-- A protocol byte: rows 0x06 / 0xFF and 0x11 / 0xFF, then mask 0x00 (R77). -/
def decodeProto8 (protocol : Byte) : Instr :=
  if protocol &&& 0xFF#8 = 0x06#8 then .dispatchTcp
  else if protocol &&& 0xFF#8 = 0x11#8 then .dispatchUdp
  else .dispatchUnknown protocol

/-- An engine row. -/
def decodeEngine : EngineRow → Instr
  | .decode => .decode
  | .decEth => .decEth
  | .decIpv4 => .decIpv4
  | .decTcp => .decTcp
  | .decUdp => .decUdp
  | .complete => .engineComplete

/-- The decoder, total on every word that reaches the block. -/
def decode (p : Params) : InstrWord → Except DecodeReject Instr
  | .ht sel wdata => decodeHt p sel wdata
  | .proto8 protocol => .ok (decodeProto8 protocol)
  | .engine row => .ok (decodeEngine row)

/-- The word that the bits of `w`, numbered as the opcode table numbers them, stand for (log 10).
No bits: ENGINE_COMPLETE, the engine's one step.
Up to 8 bits: a protocol byte.
More: HT in the first three bytes (bits 18:0 of 23:0), then WDATA in bits 55:24. -/
def readWord (nbits w : Nat) : Except DecodeReject InstrWord :=
  if nbits = 0 then .ok (.engine .complete)
  else if nbits ≤ 8 then
    if w < 2 ^ 8 then .ok (.proto8 (BitVec.ofNat 8 w)) else .error .selectorTooWide
  else if nbits ≤ 56 then
    if w < 2 ^ 56 ∧ w % 2 ^ 24 < 2 ^ 19 then
      .ok (.ht (BitVec.ofNat 19 (w % 2 ^ 24)) (BitVec.ofNat 32 (w / 2 ^ 24)))
    else .error .selectorTooWide
  else .error .noFormat

/-- The instruction the decoder reads from an instruction whose bits are `w`, at the table's MAX_FRAME of 2048 (R84). -/
def decodeTableWord (nbits w : Nat) : Option Instr :=
  match readWord nbits w with
  | .ok word =>
    match decode Params.default word with
    | .ok i => some i
    | .error _ => none
  | .error _ => none

/-! ### The same decoder by fields -/

/-- A word transaction to the register window, by its word address (R29, R144 to R157). -/
def decodeRegWord (we : Bool) (addr : Addr) (wdata : Word) : Instr :=
  match we, addr.toNat / 4 with
  | true, 0x400 =>
    if wdata.getLsbD 1 then .ctrlSrst
    else if wdata.getLsbD 0 then .ctrlStart (wdataIrqEn wdata)
    else .ctrlWr (wdataIrqEn wdata)
  | true, 0x401 => .statusWr wdata
  | true, 0x402 => .lenWr (wdata.extractLsb' 0 16)
  | true, 0x403 => .tsLoWr wdata
  | true, 0x404 => .tsHiWr wdata
  | true, w =>
    if 0x408 ≤ w ∧ w < 0x410 then .resWrLow addr wdata
    else if 0x410 ≤ w ∧ w < 0x418 then .resWrHigh addr wdata
    else .rsvdWr addr wdata
  | false, 0x400 => .ctrlRd
  | false, 0x401 => .statusRd
  | false, 0x402 => .lenRd
  | false, 0x403 => .tsLoRd
  | false, 0x404 => .tsHiRd
  | false, 0x408 => .resTsLoRd
  | false, 0x409 => .resTsHiRd
  | false, 0x40A => .dstMacHiRd
  | false, 0x40B => .dstMacLoRd
  | false, 0x40C => .srcMacHiRd
  | false, 0x40D => .srcMacLoRd
  | false, 0x40E => .ipInfoRd
  | false, 0x40F => .srcIpRd
  | false, 0x410 => .dstIpRd
  | false, 0x411 => .l4InfoRd
  | false, 0x412 => .portsRd
  | false, 0x413 => .tcpSeqRd
  | false, 0x414 => .tcpAckRd
  | false, 0x415 => .udpLenCsumRd
  | false, 0x416 => .region0Rd
  | false, 0x417 => .region1Rd
  | false, _ => .rsvdRd addr

/-- A legal-width transaction, by its address (R51, R57). -/
def decodeAccess (p : Params) (width : Width) (we : Bool) (addr : Addr) (wdata : Word) : Instr :=
  if inBuffer p addr then
    match width, we with
    | .byte, true => .bufWr8 addr (wdata.extractLsb' 0 8)
    | .word, true => .bufWr32 addr wdata
    | .byte, false => .bufRd8 addr
    | .word, false => .bufRd32 addr
  else if inRegWindow addr then
    match width, we with
    | .byte, true => .regByteWr addr (wdata.extractLsb' 0 8)
    | .byte, false => .regByteRd addr
    | .word, we => decodeRegWord we addr wdata
  else if we then .unmappedWr width addr wdata
  else .unmappedRd width addr

/-- The "Encoding" lines of rules R140 to R160, read by SIZE, WE and ADDR. `Laws/Decode.lean` proves it equal to the
table's first match. -/
def decodeByFields (p : Params) (ht : Selector) (wdata : Word) : Instr :=
  if selSize ht = 0b01#2 then .halfRefused (selWe ht) (selAddr ht)
  else if selSize ht = 0b11#2 then .size11Refused (selWe ht) (selAddr ht)
  else decodeAccess p (selWidth ht) (selWe ht) (selAddr ht) wdata

/-! ### The encoder -/

/-- SIZE, WE and ADDR packed into HT (R78). -/
def selector (size : BitVec 2) (we : Bool) (addr : Addr) : Selector := size ++ BitVec.ofBool we ++ addr

/-- The SIZE code of a width (R78). -/
def sizeCode : Width → BitVec 2
  | .byte => 0b00#2
  | .word => 0b10#2

/-- A read; its WDATA is not used (R78). -/
def readSel (width : Width) (addr : Addr) : InstrWord := .ht (selector (sizeCode width) false addr) 0#32

/-- A write of `wdata` (R78). -/
def writeSel (width : Width) (addr : Addr) (wdata : Word) : InstrWord :=
  .ht (selector (sizeCode width) true addr) wdata

/-- The words of an instruction (R77, R78, R82). -/
def encode : Instr → InstrWord
  | .decode => .engine .decode
  | .decEth => .engine .decEth
  | .decIpv4 => .engine .decIpv4
  | .dispatchTcp => .proto8 6#8
  | .dispatchUdp => .proto8 17#8
  | .dispatchUnknown protocol => .proto8 protocol
  | .decTcp => .engine .decTcp
  | .decUdp => .engine .decUdp
  | .engineComplete => .engine .complete
  | .halfRefused we addr => .ht (selector 0b01#2 we addr) 0#32
  | .size11Refused we addr => .ht (selector 0b11#2 we addr) 0#32
  | .bufWr8 addr data => writeSel .byte addr (data.setWidth 32)
  | .bufWr32 addr data => writeSel .word addr data
  | .bufRd8 addr => readSel .byte addr
  | .bufRd32 addr => readSel .word addr
  | .regByteRd addr => readSel .byte addr
  | .regByteWr addr data => writeSel .byte addr (data.setWidth 32)
  | .ctrlSrst => writeSel .word 0x1000#16 0x2#32
  | .ctrlStart irqEn => writeSel .word 0x1000#16 (if irqEn then 0x5#32 else 0x1#32)
  | .ctrlWr irqEn => writeSel .word 0x1000#16 (if irqEn then 0x4#32 else 0x0#32)
  | .ctrlRd => readSel .word 0x1000#16
  | .statusRd => readSel .word 0x1004#16
  | .statusWr data => writeSel .word 0x1004#16 data
  | .lenWr len => writeSel .word 0x1008#16 (len.setWidth 32)
  | .lenRd => readSel .word 0x1008#16
  | .tsLoWr data => writeSel .word 0x100C#16 data
  | .tsLoRd => readSel .word 0x100C#16
  | .tsHiWr data => writeSel .word 0x1010#16 data
  | .tsHiRd => readSel .word 0x1010#16
  | .resTsLoRd => readSel .word 0x1020#16
  | .resTsHiRd => readSel .word 0x1024#16
  | .dstMacHiRd => readSel .word 0x1028#16
  | .dstMacLoRd => readSel .word 0x102C#16
  | .srcMacHiRd => readSel .word 0x1030#16
  | .srcMacLoRd => readSel .word 0x1034#16
  | .ipInfoRd => readSel .word 0x1038#16
  | .srcIpRd => readSel .word 0x103C#16
  | .dstIpRd => readSel .word 0x1040#16
  | .l4InfoRd => readSel .word 0x1044#16
  | .portsRd => readSel .word 0x1048#16
  | .tcpSeqRd => readSel .word 0x104C#16
  | .tcpAckRd => readSel .word 0x1050#16
  | .udpLenCsumRd => readSel .word 0x1054#16
  | .region0Rd => readSel .word 0x1058#16
  | .region1Rd => readSel .word 0x105C#16
  | .resWrLow addr data => writeSel .word addr data
  | .resWrHigh addr data => writeSel .word addr data
  | .rsvdRd addr => readSel .word addr
  | .rsvdWr addr data => writeSel .word addr data
  | .unmappedRd width addr => readSel width addr
  | .unmappedWr width addr data => writeSel width addr data

end Sys2Proof
end

