-- ==== Sys2Proof/Machine/State.lean ====
section
/-! DEFINITION. The state of one instance of the Packet frame parser (spec/10_state.md), the reasons a step can stop, and
the state right after hardware reset (rule R191). -/

namespace Sys2Proof.Machine

/-! ### Enumerated fields (R79) -/

/-- STATUS.STATE (R22). Code 3 is reserved and never produced, so it has no constructor (log 13). -/
inductive Phase where
  | idle
  | busy
  | done
  deriving DecidableEq, Repr

/-- The two kinds of decode failure (R170). -/
inductive ErrKind where
  | truncatedFrame
  | invalidHeaderLength
  deriving DecidableEq, Repr

/-- The layer whose decoder failed (R25). -/
inductive Layer where
  | eth
  | ipv4
  | tcp
  | udp
  deriving DecidableEq, Repr

/-- L4_INFO.L4_KIND (R26). -/
inductive L4Kind where
  | none
  | tcp
  | udp
  | unknown
  deriving DecidableEq, Repr

/-! ### The values of a decode (R100 to R103, R120) -/

/-- The outcome of a codec or of DECODE: a value, or `fail(K, L)` (R15, R104). -/
inductive Result (α : Type) where
  | ok (value : α)
  | fail (kind : ErrKind) (layer : Layer)
  deriving DecidableEq, Repr

/-- What DEC_ETH returns (R100). -/
structure EthHeader where
  dstMac : BitVec 48
  srcMac : BitVec 48
  deriving DecidableEq, Repr

/-- What DEC_IPV4 returns (R101). -/
structure IpHeader where
  ver      : BitVec 4
  ihl      : BitVec 4
  hlen     : BitVec 6
  protocol : BitVec 8
  srcIp    : BitVec 32
  dstIp    : BitVec 32
  deriving DecidableEq, Repr

/-- What DEC_TCP returns (R102). -/
structure TcpHeader where
  srcPort : BitVec 16
  dstPort : BitVec 16
  seq     : BitVec 32
  ack     : BitVec 32
  doff    : BitVec 4
  tlen    : BitVec 6
  deriving DecidableEq, Repr

/-- What DEC_UDP returns (R103). -/
structure UdpHeader where
  srcPort  : BitVec 16
  dstPort  : BitVec 16
  length   : BitVec 16
  checksum : BitVec 16
  deriving DecidableEq, Repr

/-- The transport header, a tagged union (R26, R27). -/
inductive Transport where
  | tcp (header : TcpHeader)
  | udp (header : UdpHeader)
  | unknown (protocol : BitVec 8)
  deriving DecidableEq, Repr

/-- The decoded packet that DECODE returns (R120). Offsets and lengths are exact integers (R12, R133). -/
structure Packet where
  eth       : EthHeader
  ip        : IpHeader
  transport : Transport
  l4        : Nat
  poff      : Nat
  plen      : Nat
  ts        : BitVec 64
  deriving DecidableEq, Repr

/-- The named values of DECODE's pseudocode (R120) that an engine row, evaluated by itself, reads and writes. They are
the model's own: no register, no memory byte and no output depends on them (log 5). -/
structure EngineVars where
  eth       : Option EthHeader
  ip        : Option IpHeader
  l4        : Nat
  transport : Option Transport
  poff      : Nat
  plen      : Nat
  failure   : Option (ErrKind × Layer)
  returned  : Option (Result Packet)
  deriving DecidableEq, Repr

/-- No codec evaluated. -/
def EngineVars.cleared : EngineVars :=
  { eth := none, ip := none, l4 := 0, transport := none, poff := 0, plen := 0, failure := none, returned := none }

/-! ### The result fields (R26) -/

/-- The result fields, which hold one DecodedPacket (R26). -/
structure Results where
  resTs      : BitVec 64
  dstMac     : BitVec 48
  srcMac     : BitVec 48
  ipVer      : BitVec 4
  ipIhl      : BitVec 4
  ipProto    : BitVec 8
  ipHlen     : BitVec 6
  srcIp      : BitVec 32
  dstIp      : BitVec 32
  l4Kind     : L4Kind
  unkProto   : BitVec 8
  l4Hlen     : BitVec 6
  tcpDoff    : BitVec 4
  srcPort    : BitVec 16
  dstPort    : BitVec 16
  tcpSeq     : BitVec 32
  tcpAck     : BitVec 32
  udpLen     : BitVec 16
  udpCsum    : BitVec 16
  l4Off      : BitVec 16
  payloadOff : BitVec 16
  payloadLen : BitVec 16
  deriving DecidableEq, Repr

/-- Every result field 0 (R28, R48). -/
def Results.cleared : Results :=
  { resTs := 0, dstMac := 0, srcMac := 0, ipVer := 0, ipIhl := 0, ipProto := 0, ipHlen := 0, srcIp := 0, dstIp := 0,
    l4Kind := .none, unkProto := 0, l4Hlen := 0, tcpDoff := 0, srcPort := 0, dstPort := 0, tcpSeq := 0, tcpAck := 0,
    udpLen := 0, udpCsum := 0, l4Off := 0, payloadOff := 0, payloadLen := 0 }

/-! ### The state -/

/-- The frame buffer's written bytes (R23). -/
abbrev Memory := List Host.Cell

/-- The state of one instance. -/
structure State where
  /-- The parameters of R9, constant (log 9). -/
  params   : Params
  /-- CTRL.IRQ_EN (R30). -/
  irqEn    : Bool
  /-- STATUS.STATE (R22). -/
  phase    : Phase
  /-- STATUS.OK (R25). -/
  ok       : Bool
  /-- STATUS.ERR, `none` for code 0 NONE (R25). -/
  err      : Option ErrKind
  /-- STATUS.LAYER, `none` for code 0 NONE (R25). -/
  layer    : Option Layer
  /-- FRAME_LEN.LEN (R32). -/
  frameLen : BitVec 16
  /-- TS (R33). -/
  ts       : BitVec 64
  /-- The result fields (R26). -/
  results  : Results
  /-- The frame buffer: the written bytes by rising address (R23). -/
  fb       : Memory
  /-- What the last host read returned on rdata[31:0] (R8, R16; log 6). -/
  rdata    : Word
  /-- The engine's named values outside ENGINE_COMPLETE (log 5). -/
  engine   : EngineVars
  /-- How many draw indices have been used (R23; log 7). -/
  draws    : Nat
  /-- The events still to come, in the order of R62 (log 1). -/
  inputs   : List Event
  deriving DecidableEq, Repr

/-! ### Why a step can stop -/

/-- The block has no faults: a decode failure is a state (R15), no host encoding traps (R80). -/
inductive Fault where
  deriving DecidableEq, Repr

/-- Why the model gives an operation no next state (R18, R177). -/
inductive Refusal where
  /-- Raised by exec for an instruction without a meaning; safe. No arm raises it. -/
  | notModelled (mnemonic : String)
  /-- Raised by HALF_REFUSED and SIZE11_REFUSED: Refused(BadSize) (R158); safe. -/
  | badSize
  /-- Raised by CTRL_START while not BUSY with LEN > MAX_FRAME: Refused(FrameTooLong) (R145); safe. -/
  | frameTooLong
  /-- Raised by ENGINE_COMPLETE while STATE is not BUSY: the step is not enabled (R129; log 4); safe. -/
  | engineNotEnabled
  /-- Raised by step for a word that no row of the table matches; the table is total (R84), so never; safe. -/
  | undecoded
  deriving DecidableEq, Repr

/-! ### Reset -/

/-- The state right after hardware reset (R191), with nothing still to come. The model's own fields hold the values of
log 5, log 6 and log 7. -/
def State.reset : State :=
  { params := Params.default, irqEn := false, phase := .idle, ok := false, err := none, layer := none,
    frameLen := 0, ts := 0, results := Results.cleared, fb := [], rdata := 0, engine := EngineVars.cleared,
    draws := 0, inputs := [] }

end Sys2Proof.Machine
end

