-- ==== Sys2Proof/Machine/Operands.lean ====
section
/-! DEFINITION. The operand forms: network-order fields of a frame, nibbles and scaled lengths (R11, R14, R74), the byte
lanes of a bus word (R53), and the alignment of a word address (R56). -/

namespace Sys2Proof.Machine

/-! ### Frame fields. `b` is the primitive ByteAt (R13). -/

/-- `be16(o)`: the byte at the lower offset is the more significant one (R14). -/
def be16 (b : Nat → Byte) (o : Nat) : BitVec 16 := b o ++ b (o + 1)

/-- `be32(o)` (R14). -/
def be32 (b : Nat → Byte) (o : Nat) : BitVec 32 := b o ++ b (o + 1) ++ b (o + 2) ++ b (o + 3)

/-- A 48-bit MAC (R74). -/
def mac48 (b : Nat → Byte) (o : Nat) : BitVec 48 :=
  b o ++ b (o + 1) ++ b (o + 2) ++ b (o + 3) ++ b (o + 4) ++ b (o + 5)

/-- The top nibble, `v[7:4]` (R11). -/
def highNibble (v : Byte) : BitVec 4 := v.extractLsb' 4 4

/-- The bottom nibble, `v[3:0]` (R11). -/
def lowNibble (v : Byte) : BitVec 4 := v.extractLsb' 0 4

/-- A length in 32-bit words scaled to bytes: `zext_6(v) × 4` (R74). -/
def scaleWords (v : BitVec 4) : BitVec 6 := v.setWidth 6 <<< 2

/-! ### Bus words -/

/-- Byte lane k of a bus word: bits 8k+7 to 8k (R53). -/
def lane (v : Word) (k : Nat) : Byte := v.extractLsb' (8 * k) 8

/-- The bus word whose lanes 0 to 3 are the four bytes (R53, R143). -/
def packLanes (b0 b1 b2 b3 : Byte) : Word := b3 ++ b2 ++ b1 ++ b0

/-- The aligned word a 32-bit access acts on: `addr & 0xFFFC` (R56). -/
def alignWord (a : Addr) : Addr := a &&& 0xFFFC#16

end Sys2Proof.Machine
end

