-- ==== Sys2Proof/Machine/Ops.lean ====
section
/-! DEFINITION. The named operations over memory and registers: the frame buffer and its draws (R23, R53, R199), what a
host read returns (R78), publishing a result (R129), taking a decode failure (R175), the two returns from one (R176), and
both resets (R146, R190). -/

namespace Sys2Proof.Machine

/-! ### The frame buffer as a list of written bytes -/

namespace Memory

/-- The byte an address holds; `none` is an unwritten byte (R23). -/
def read : Memory → Nat → Option Byte
  | [], _ => none
  | (k, b) :: m, a => if k = a then some b else read m a

/-- Write one byte, keeping addresses rising. -/
def write : Memory → Nat → Byte → Memory
  | [], a, v => [(a, v)]
  | (k, b) :: m, a, v =>
    if a < k then (a, v) :: (k, b) :: m
    else if a = k then (a, v) :: m
    else (k, b) :: write m a v

/-- The canonical form: addresses strictly rising. An unlisted address reads as a draw, so no entry equals what an
unlisted address reads as. -/
abbrev wf (m : Memory) : Prop := m.Pairwise (fun c d => c.1 < d.1)

/-- Every address is one of the buffer's (R23). -/
abbrev within (limit : Nat) (m : Memory) : Prop := ∀ c ∈ m, c.1 < limit

end Memory

/-! ### Reading the frame buffer -/

/-- A byte of the buffer as the read with draw index `draws + k` sees it: the written value, or a draw (R23). -/
def State.bufferByte (s : State) (k a : Nat) : Byte :=
  match Memory.read s.fb a with
  | some v => v
  | none => Config.drawByte s.params.drawStream (s.draws + k)

/-- ByteAt (R13): every offset of one engine evaluation has a draw index of its own. An offset at or past MAX_FRAME,
which only a row taken alone with LEN > MAX_FRAME can ask for, is no byte of FB and reads as a draw (DESIGN CHOICE,
log 19). -/
def State.byteAt (s : State) (i : Nat) : Byte := s.bufferByte i i

/-- A host read of one byte of the address space outside the register window: the buffer, or 0 where it is unmapped
(R51, R60). -/
def State.loadByte (s : State) (k a : Nat) : Byte :=
  if a < s.params.maxFrame then s.bufferByte k a else 0#8

/-- Use up draw indices: no later read meets them again (R23). -/
def State.useDraws (s : State) (n : Nat) : State := { s with draws := s.draws + n }

/-! ### Writing what the host may write -/

/-- A host write of one byte: the buffer takes it, an unmapped address ignores it (R51, R60). -/
def State.storeByte (s : State) (a : Nat) (v : Byte) : State :=
  if a < s.params.maxFrame then { s with fb := Memory.write s.fb a v } else s

/-- The four bytes of a bus word, lane k at `w + k` (R53). -/
def State.storeWord (s : State) (w : Nat) (v : Word) : State :=
  (((s.storeByte w (lane v 0)).storeByte (w + 1) (lane v 1)).storeByte (w + 2) (lane v 2)).storeByte (w + 3) (lane v 3)

/-- The input hazard: a write to FB, FRAME_LEN or TS is ignored while BUSY (R199). -/
def State.unlessBusy (s : State) (write : State → State) : State :=
  match s.phase with
  | .busy => s
  | .idle => write s
  | .done => write s

/-- What a host read returns (R16, R78). -/
def State.returns (s : State) (v : Word) : State := { s with rdata := v }

/-! ### The engine -/

/-- Evaluate an engine row by itself: it may read the frame and LEN, and writes only the engine's named values
(R104; log 5). It is evaluated at any LEN, one above MAX_FRAME included (DESIGN CHOICE, log 19). -/
def State.evaluate (s : State) (f : (Nat → Byte) → Nat → EngineVars → EngineVars) : State :=
  { s with engine := f s.byteAt s.frameLen.toNat s.engine, draws := s.draws + Config.engineDraws }

/-- The end of one engine step: the decode in flight is over, its named values are gone (R21), its draws are used. -/
def State.engineIdle (s : State) : State :=
  { s with engine := EngineVars.cleared, draws := s.draws + Config.engineDraws }

/-- Publish a successful decode (R129). -/
def State.publish (s : State) (r : Results) : State :=
  { s with results := r, phase := .done, ok := true, err := none, layer := none }

/-- Take a decode failure, the block's exception entry: STATUS records kind and layer, every result field is 0 (R129,
R175). -/
def State.takeFailure (s : State) (kind : ErrKind) (layer : Layer) : State :=
  { s with results := Results.cleared, phase := .done, ok := false, err := some kind, layer := some layer }

/-! ### The returns: the next START, or a reset (R176) -/

/-- An accepted START (R145). -/
def State.startDecode (s : State) (irqEn : Bool) : State :=
  { s with irqEn := irqEn, results := Results.cleared, phase := .busy, ok := false, err := none, layer := none,
           engine := EngineVars.cleared }

/-- Soft reset: every register field of R29 is 0 and a decode in flight is abandoned; FB keeps its bytes (R146, R193). -/
def State.softReset (s : State) : State :=
  { s with irqEn := false, phase := .idle, ok := false, err := none, layer := none, frameLen := 0, ts := 0,
           results := Results.cleared, engine := EngineVars.cleared }

/-- Hardware reset: as soft reset, and every byte of FB becomes unwritten (R190). The draw indices used stay used
(log 8). -/
def State.hardReset (s : State) : State := { s.softReset with fb := [] }

end Sys2Proof.Machine
end

