-- ==== Sys2Proof/Machine/Flags.lean ====
section
/-! DEFINITION. The status fields and the interrupt: the code numbers (R79), the CTRL and STATUS words (R30, R31), and
`irq` (R46). -/

namespace Sys2Proof.Machine

/-- Code of STATUS.STATE (R22). -/
def Phase.code : Phase → BitVec 2
  | .idle => 0
  | .busy => 1
  | .done => 2

/-- Code of STATUS.ERR (R79, R129). -/
def errCode : Option ErrKind → BitVec 4
  | none => 0
  | some .truncatedFrame => 1
  | some .invalidHeaderLength => 2

/-- Code of STATUS.LAYER (R79, R129). -/
def layerCode : Option Layer → BitVec 4
  | none => 0
  | some .eth => 1
  | some .ipv4 => 2
  | some .tcp => 3
  | some .udp => 4

/-- Code of L4_INFO.L4_KIND (R79). -/
def L4Kind.code : L4Kind → BitVec 2
  | .none => 0
  | .tcp => 1
  | .udp => 2
  | .unknown => 3

/-- The CTRL word: `zext_32(IRQ_EN) << 2`; START and SRST read 0 (R30, R147). -/
def State.ctrlWord (s : State) : Word := (BitVec.ofBool s.irqEn).setWidth 32 <<< 2

/-- The STATUS word: `LAYER ++ ERR ++ 0 ++ OK ++ STATE`, zero-extended (R31, R148). -/
def State.statusWord (s : State) : Word :=
  (layerCode s.layer ++ errCode s.err ++ 0#1 ++ BitVec.ofBool s.ok ++ s.phase.code : BitVec 12).setWidth 32

/-- The interrupt output, a level (R46, R178). -/
def State.irq (s : State) : Bool := (s.phase == .done) && s.irqEn

end Sys2Proof.Machine
end

