-- ==== Sys2Proof/Machine/Buffer.lean ====
section
/-! DEFINITION. Host accesses to the frame buffer (R140 to R143) and the refused sizes (R158). -/

namespace Sys2Proof.Machine

/-- HALF_REFUSED (R158). -/
def execHalfRefused (_we : Bool) (_addr : Addr) (_s : State) : Host.Outcome State Fault Refusal :=
  .refused .badSize

/-- SIZE11_REFUSED (R158). -/
def execSize11Refused (_we : Bool) (_addr : Addr) (_s : State) : Host.Outcome State Fault Refusal :=
  .refused .badSize

/-- BUF_WR8 (R140). -/
def execBufWr8 (addr : Addr) (data : Byte) (s : State) : Host.Outcome State Fault Refusal :=
  .next (s.unlessBusy fun s => s.storeByte addr.toNat data)

/-- BUF_WR32 (R141). -/
def execBufWr32 (addr : Addr) (data : Word) (s : State) : Host.Outcome State Fault Refusal :=
  .next (s.unlessBusy fun s => s.storeWord (alignWord addr).toNat data)

/-- BUF_RD8 (R142): one read, one draw index. -/
def execBufRd8 (addr : Addr) (s : State) : Host.Outcome State Fault Refusal :=
  .next ((s.returns ((s.loadByte 0 addr.toNat).setWidth 32)).useDraws 1)

/-- BUF_RD32 (R143): each unwritten byte is an independent draw. -/
def execBufRd32 (addr : Addr) (s : State) : Host.Outcome State Fault Refusal :=
  let w := (alignWord addr).toNat
  .next ((s.returns
    (packLanes (s.loadByte 0 w) (s.loadByte 1 (w + 1)) (s.loadByte 2 (w + 2)) (s.loadByte 3 (w + 3)))).useDraws 4)

end Sys2Proof.Machine
end

