-- ==== Sys2Proof/Machine/Control.lean ====
section
/-! DEFINITION. CTRL, STATUS, FRAME_LEN and TS (R144 to R153). -/

namespace Sys2Proof.Machine

/-- CTRL_SRST (R146). -/
def execCtrlSrst (s : State) : Host.Outcome State Fault Refusal := .next s.softReset

/-- An accepted or refused START, not BUSY (R145). -/
def State.tryStart (s : State) (irqEn : Bool) : Host.Outcome State Fault Refusal :=
  if s.frameLen.toNat > s.params.maxFrame then .refused .frameTooLong
  else .next (s.startDecode irqEn)

/-- CTRL_START (R145): while BUSY only IRQ_EN is written (R200). -/
def execCtrlStart (irqEn : Bool) (s : State) : Host.Outcome State Fault Refusal :=
  match s.phase with
  | .busy => .next { s with irqEn := irqEn }
  | .idle => s.tryStart irqEn
  | .done => s.tryStart irqEn

/-- CTRL_WR (R144). -/
def execCtrlWr (irqEn : Bool) (s : State) : Host.Outcome State Fault Refusal := .next { s with irqEn := irqEn }

/-- CTRL_RD (R147). -/
def execCtrlRd (s : State) : Host.Outcome State Fault Refusal := .next (s.returns s.ctrlWord)

/-- STATUS_RD (R148). -/
def execStatusRd (s : State) : Host.Outcome State Fault Refusal := .next (s.returns s.statusWord)

/-- LEN_WR (R149). -/
def execLenWr (len : BitVec 16) (s : State) : Host.Outcome State Fault Refusal :=
  .next (s.unlessBusy fun s => { s with frameLen := len })

/-- LEN_RD (R150). -/
def execLenRd (s : State) : Host.Outcome State Fault Refusal := .next (s.returns (s.frameLen.setWidth 32))

/-- TS_LO_WR (R151): `TS[31:0] <- WDATA`. -/
def execTsLoWr (data : Word) (s : State) : Host.Outcome State Fault Refusal :=
  .next (s.unlessBusy fun s => { s with ts := s.ts.extractLsb' 32 32 ++ data })

/-- TS_LO_RD (R153). -/
def execTsLoRd (s : State) : Host.Outcome State Fault Refusal := .next (s.returns (s.ts.extractLsb' 0 32))

/-- TS_HI_WR (R152): `TS[63:32] <- WDATA`. -/
def execTsHiWr (data : Word) (s : State) : Host.Outcome State Fault Refusal :=
  .next (s.unlessBusy fun s => { s with ts := data ++ s.ts.extractLsb' 0 32 })

/-- TS_HI_RD (R153). -/
def execTsHiRd (s : State) : Host.Outcome State Fault Refusal := .next (s.returns (s.ts.extractLsb' 32 32))

end Sys2Proof.Machine
end

