-- ==== Sys2Proof/Machine/Codec.lean ====
section
/-! DEFINITION. The layer codecs (R100 to R103), the dispatch and DECODE (R120 to R128) as pure functions of ByteAt, and
the result fields a packet publishes (R129). -/

namespace Sys2Proof.Machine

/-- Go on with a value; a failure ends the decode at once (R127). -/
def Result.andThen {α β : Type} (r : Result α) (f : α → Result β) : Result β :=
  match r with
  | .ok v => f v
  | .fail kind layer => .fail kind layer

/-! ### The four codecs -/

/-- DEC_ETH(n) (R100). -/
def decEth (b : Nat → Byte) (n : Nat) : Result EthHeader :=
  if n < 14 then .fail .truncatedFrame .eth
  else .ok { dstMac := mac48 b 0, srcMac := mac48 b 6 }

/-- DEC_IPV4(m) (R101): the region starts at frame offset 14. -/
def decIpv4 (b : Nat → Byte) (m : Nat) : Result IpHeader :=
  if m < 20 then .fail .truncatedFrame .ipv4
  else
    let vihl := b 14
    let ihl := lowNibble vihl
    let hlen := scaleWords ihl
    if hlen.toNat > m ∨ hlen.toNat < 20 then .fail .invalidHeaderLength .ipv4
    else .ok { ver := highNibble vihl, ihl := ihl, hlen := hlen, protocol := b (14 + 9),
               srcIp := be32 b (14 + 12), dstIp := be32 b (14 + 16) }

/-- DEC_TCP(l4, r) (R102). -/
def decTcp (b : Nat → Byte) (l4 r : Nat) : Result TcpHeader :=
  if r < 20 then .fail .truncatedFrame .tcp
  else
    let doff := highNibble (b (l4 + 12))
    let tlen := scaleWords doff
    if tlen.toNat < 20 ∨ tlen.toNat > r then .fail .invalidHeaderLength .tcp
    else .ok { srcPort := be16 b (l4 + 0), dstPort := be16 b (l4 + 2), seq := be32 b (l4 + 4),
               ack := be32 b (l4 + 8), doff := doff, tlen := tlen }

/-- DEC_UDP(l4, r) (R103). -/
def decUdp (b : Nat → Byte) (l4 r : Nat) : Result UdpHeader :=
  if r < 8 then .fail .truncatedFrame .udp
  else .ok { srcPort := be16 b (l4 + 0), dstPort := be16 b (l4 + 2), length := be16 b (l4 + 4),
             checksum := be16 b (l4 + 6) }

/-! ### Dispatch -/

/-- DISPATCH_TCP (R124). -/
def dispatchTcp (b : Nat → Byte) (l4 r : Nat) : Result Transport :=
  (decTcp b l4 r).andThen fun header => .ok (.tcp header)

/-- DISPATCH_UDP (R125). -/
def dispatchUdp (b : Nat → Byte) (l4 r : Nat) : Result Transport :=
  (decUdp b l4 r).andThen fun header => .ok (.udp header)

/-- DISPATCH_UNKNOWN (R126): a normal outcome, no transport byte is read. -/
def dispatchUnknown (protocol : Byte) : Result Transport := .ok (.unknown protocol)

/-- Step 4 of DECODE: the protocol byte selects the transport decoder (R77, R120). -/
def dispatch (b : Nat → Byte) (protocol : Byte) (l4 r : Nat) : Result Transport :=
  if protocol = 0x06#8 then dispatchTcp b l4 r
  else if protocol = 0x11#8 then dispatchUdp b l4 r
  else dispatchUnknown protocol

/-- The transport header's length: TCP its data offset × 4, UDP 8, Unknown 0 (R75, R128). -/
def Transport.hlen : Transport → BitVec 6
  | .tcp header => header.tlen
  | .udp _ => 8
  | .unknown _ => 0

/-! ### DECODE -/

/-- DECODE(n, ts) (R120). -/
def decodeFrame (b : Nat → Byte) (n : Nat) (ts : BitVec 64) : Result Packet :=
  (decEth b n).andThen fun eth =>
  (decIpv4 b (n - 14)).andThen fun ip =>
  let l4 := 14 + ip.hlen.toNat
  (dispatch b ip.protocol l4 (n - l4)).andThen fun transport =>
  let poff := l4 + transport.hlen.toNat
  .ok { eth := eth, ip := ip, transport := transport, l4 := l4, poff := poff, plen := n - poff, ts := ts }

/-! ### The result fields of a packet -/

/-- The fields every packet publishes; the transport fields are 0 (R27, R129). -/
def Packet.commonResults (p : Packet) : Results :=
  { Results.cleared with
    resTs := p.ts
    dstMac := p.eth.dstMac
    srcMac := p.eth.srcMac
    ipVer := p.ip.ver
    ipIhl := p.ip.ihl
    ipProto := p.ip.protocol
    ipHlen := p.ip.hlen
    srcIp := p.ip.srcIp
    dstIp := p.ip.dstIp
    l4Off := BitVec.ofNat 16 p.l4
    payloadOff := BitVec.ofNat 16 p.poff
    payloadLen := BitVec.ofNat 16 p.plen }

/-- The result fields ENGINE_COMPLETE publishes for `Ok(p)` (R129). -/
def Packet.results (p : Packet) : Results :=
  match p.transport with
  | .tcp h =>
    { p.commonResults with
      l4Kind := .tcp, srcPort := h.srcPort, dstPort := h.dstPort, tcpSeq := h.seq, tcpAck := h.ack,
      tcpDoff := h.doff, l4Hlen := h.tlen }
  | .udp h =>
    { p.commonResults with
      l4Kind := .udp, srcPort := h.srcPort, dstPort := h.dstPort, udpLen := h.length, udpCsum := h.checksum,
      l4Hlen := 8 }
  | .unknown q =>
    { p.commonResults with l4Kind := .unknown, unkProto := q, l4Hlen := 0 }

end Sys2Proof.Machine
end

