-- ==== Sys2Proof/Machine/Engine.lean ====
section
/-! DEFINITION. The engine rows: the codecs, the dispatches and DECODE, each evaluated by itself (log 5), and
ENGINE_COMPLETE, the engine's only step (R129). -/

namespace Sys2Proof.Machine

/-! ### What a row leaves in the engine's named values -/

/-- A failure ends the decode: nothing of it is left but the failure (R127). In a row taken alone DECODE's earlier return
is dropped too (DESIGN CHOICE, log 22). -/
def EngineVars.failed (kind : ErrKind) (layer : Layer) : EngineVars :=
  { EngineVars.cleared with failure := some (kind, layer) }

/-- A later codec is evaluated only when every earlier one succeeded (R101, R127). -/
def EngineVars.unlessFailed (v : EngineVars) (f : EngineVars → EngineVars) : EngineVars :=
  match v.failure with
  | none => f v
  | some _ => v

/-- Step 1 (R121): a new decode begins. In a row taken alone this drops the whole record, a recorded failure and DECODE's
return included (DESIGN CHOICE, log 22). -/
def EngineVars.setEth : Result EthHeader → EngineVars
  | .ok eth => { EngineVars.cleared with eth := some eth }
  | .fail kind layer => EngineVars.failed kind layer

/-- Steps 2 and 3 (R122, R123): the header, and the transport region's offset. -/
def EngineVars.setIp (v : EngineVars) : Result IpHeader → EngineVars
  | .ok ip => { v with ip := some ip, l4 := 14 + ip.hlen.toNat }
  | .fail kind layer => EngineVars.failed kind layer

/-- The transport header alone (R102, R103). -/
def EngineVars.setTransport (v : EngineVars) : Result Transport → EngineVars
  | .ok transport => { v with transport := some transport }
  | .fail kind layer => EngineVars.failed kind layer

/-- Step 4 (R124 to R126, R128): the transport header, and where the payload lies. In a row taken alone with
`n < l4 + hlen` the payload length stops at 0 (DESIGN CHOICE, log 20). -/
def EngineVars.setDispatched (v : EngineVars) (n : Nat) : Result Transport → EngineVars
  | .ok transport =>
    { v with transport := some transport, poff := v.l4 + transport.hlen.toNat,
             plen := n - (v.l4 + transport.hlen.toNat) }
  | .fail kind layer => EngineVars.failed kind layer

/-- Step 5: what the named values say DECODE returns, once they are complete (R120). -/
def EngineVars.packet (v : EngineVars) (ts : BitVec 64) : Option (Result Packet) :=
  match v.failure, v.eth, v.ip, v.transport with
  | some (kind, layer), _, _, _ => some (.fail kind layer)
  | none, some eth, some ip, some transport =>
    some (.ok { eth := eth, ip := ip, transport := transport, l4 := v.l4, poff := v.poff, plen := v.plen, ts := ts })
  | none, _, _, _ => none

/-! ### ENGINE_COMPLETE -/

/-- Publish what DECODE returned (R129). -/
def State.conclude (s : State) : Result Packet → State
  | .ok p => s.publish p.results
  | .fail kind layer => s.takeFailure kind layer

/-- ENGINE_COMPLETE while it is enabled (R129). -/
def State.complete (s : State) : State :=
  (s.conclude (decodeFrame s.byteAt s.frameLen.toNat s.ts)).engineIdle

/-! ### The meanings -/

/-- DECODE (R120). Taken alone it writes its return and nothing else of the record, also after a recorded failure
(DESIGN CHOICE, log 22). -/
def execDecode (s : State) : Host.Outcome State Fault Refusal :=
  .next (s.evaluate fun b n v => { v with returned := some (decodeFrame b n s.ts) })

/-- DEC_ETH (R100). Taken alone it begins a new decode, also after a recorded failure (DESIGN CHOICE, log 22). -/
def execDecEth (s : State) : Host.Outcome State Fault Refusal :=
  .next (s.evaluate fun b n _ => EngineVars.setEth (decEth b n))

/-- DEC_IPV4 (R101). Taken alone it needs no recorded DEC_ETH success, and `n - 14` stops at 0 (DESIGN CHOICE,
log 20). -/
def execDecIpv4 (s : State) : Host.Outcome State Fault Refusal :=
  .next (s.evaluate fun b n v => v.unlessFailed fun v => v.setIp (decIpv4 b (n - 14)))

/-- DEC_TCP (R102): l4 is the engine's, r = n − l4. Taken alone it needs no recorded protocol 6, and `n - l4` stops at 0
(DESIGN CHOICE, log 20). -/
def execDecTcp (s : State) : Host.Outcome State Fault Refusal :=
  .next (s.evaluate fun b n v => v.unlessFailed fun v => v.setTransport (dispatchTcp b v.l4 (n - v.l4)))

/-- DEC_UDP (R103). Taken alone it needs no recorded protocol 17, and `n - l4` stops at 0 (DESIGN CHOICE, log 20). -/
def execDecUdp (s : State) : Host.Outcome State Fault Refusal :=
  .next (s.evaluate fun b n v => v.unlessFailed fun v => v.setTransport (dispatchUdp b v.l4 (n - v.l4)))

/-- DISPATCH_TCP (R124): the selecting protocol byte is 6. Taken alone it does not look at the recorded protocol, and
`n - l4` stops at 0 (DESIGN CHOICE, log 20). -/
def execDispatchTcp (s : State) : Host.Outcome State Fault Refusal :=
  .next (s.evaluate fun b n v => v.unlessFailed fun v => v.setDispatched n (dispatchTcp b v.l4 (n - v.l4)))

/-- DISPATCH_UDP (R125): the selecting protocol byte is 17. Taken alone it does not look at the recorded protocol, and
`n - l4` stops at 0 (DESIGN CHOICE, log 20). -/
def execDispatchUdp (s : State) : Host.Outcome State Fault Refusal :=
  .next (s.evaluate fun b n v => v.unlessFailed fun v => v.setDispatched n (dispatchUdp b v.l4 (n - v.l4)))

/-- DISPATCH_UNKNOWN (R126): every other protocol byte (log 17 for 6 and 17). Taken alone it does not look at the
recorded protocol, and `n - l4` stops at 0 (DESIGN CHOICE, log 20). -/
def execDispatchUnknown (protocol : Byte) (s : State) : Host.Outcome State Fault Refusal :=
  .next (s.evaluate fun _ n v => v.unlessFailed fun v => v.setDispatched n (dispatchUnknown protocol))

/-- ENGINE_COMPLETE (R129): enabled exactly when BUSY (log 4). -/
def execEngineComplete (s : State) : Host.Outcome State Fault Refusal :=
  match s.phase with
  | .busy => .next s.complete
  | .idle => .refused .engineNotEnabled
  | .done => .refused .engineNotEnabled

end Sys2Proof.Machine
end

