-- ==== Sys2Proof/Machine/Inert.lean ====
section
/-! DEFINITION. Accesses without an effect: byte accesses to the register window (R159, R160), writes to read-only
registers (R155), reserved and unmapped addresses (R156, R157). -/

namespace Sys2Proof.Machine

/-- REG_BYTE_RD (R159): reads 0. -/
def execRegByteRd (_addr : Addr) (s : State) : Host.Outcome State Fault Refusal := .next (s.returns 0#32)

/-- REG_BYTE_WR (R160): no effect. -/
def execRegByteWr (_addr : Addr) (_data : Byte) (s : State) : Host.Outcome State Fault Refusal := .next s

/-- STATUS_WR (R155): no effect. -/
def execStatusWr (_data : Word) (s : State) : Host.Outcome State Fault Refusal := .next s

/-- RES_WR, 0x1020 to 0x103C (R155): no effect. -/
def execResWrLow (_addr : Addr) (_data : Word) (s : State) : Host.Outcome State Fault Refusal := .next s

/-- RES_WR, 0x1040 to 0x105C (R155): no effect. -/
def execResWrHigh (_addr : Addr) (_data : Word) (s : State) : Host.Outcome State Fault Refusal := .next s

/-- RSVD_RD (R156): reads 0. -/
def execRsvdRd (_addr : Addr) (s : State) : Host.Outcome State Fault Refusal := .next (s.returns 0#32)

/-- RSVD_WR (R157): no effect. -/
def execRsvdWr (_addr : Addr) (_data : Word) (s : State) : Host.Outcome State Fault Refusal := .next s

/-- UNMAPPED_RD (R156): reads 0. -/
def execUnmappedRd (_width : Width) (_addr : Addr) (s : State) : Host.Outcome State Fault Refusal :=
  .next (s.returns 0#32)

/-- UNMAPPED_WR (R157): no effect. -/
def execUnmappedWr (_width : Width) (_addr : Addr) (_data : Word) (s : State) : Host.Outcome State Fault Refusal :=
  .next s

end Sys2Proof.Machine
end

