-- ==== Sys2Proof/Machine/ResultRegs.lean ====
section
/-! DEFINITION. The sixteen result registers: their layouts (R34 to R44) and their reads (R154). -/

namespace Sys2Proof.Machine

/-! ### Layouts -/

/-- RES_TS_LO (R34). -/
def Results.resTsLoWord (r : Results) : Word := r.resTs.extractLsb' 0 32

/-- RES_TS_HI (R34). -/
def Results.resTsHiWord (r : Results) : Word := r.resTs.extractLsb' 32 32

/-- DST_MAC_HI (R35): bits 31:16 reserved. -/
def Results.dstMacHiWord (r : Results) : Word := (r.dstMac.extractLsb' 32 16).setWidth 32

/-- DST_MAC_LO (R35). -/
def Results.dstMacLoWord (r : Results) : Word := r.dstMac.extractLsb' 0 32

/-- SRC_MAC_HI (R36): bits 31:16 reserved. -/
def Results.srcMacHiWord (r : Results) : Word := (r.srcMac.extractLsb' 32 16).setWidth 32

/-- SRC_MAC_LO (R36). -/
def Results.srcMacLoWord (r : Results) : Word := r.srcMac.extractLsb' 0 32

/-- IP_INFO (R37): bits 31:22 reserved. -/
def Results.ipInfoWord (r : Results) : Word := 0#10 ++ r.ipHlen ++ r.ipProto ++ r.ipVer ++ r.ipIhl

/-- L4_INFO (R39): bits 31:28, 23:22 and 7:2 reserved. -/
def Results.l4InfoWord (r : Results) : Word :=
  0#4 ++ r.tcpDoff ++ 0#2 ++ r.l4Hlen ++ r.unkProto ++ 0#6 ++ r.l4Kind.code

/-- PORTS (R40). -/
def Results.portsWord (r : Results) : Word := r.srcPort ++ r.dstPort

/-- UDP_LEN_CSUM (R42). -/
def Results.udpLenCsumWord (r : Results) : Word := r.udpLen ++ r.udpCsum

/-- REGION0 (R43). -/
def Results.region0Word (r : Results) : Word := r.payloadOff ++ r.l4Off

/-- REGION1 (R44): bits 31:16 reserved. -/
def Results.region1Word (r : Results) : Word := r.payloadLen.setWidth 32

/-! ### Reads -/

/-- RES_TS_LO_RD (R154). -/
def execResTsLoRd (s : State) : Host.Outcome State Fault Refusal := .next (s.returns s.results.resTsLoWord)

/-- RES_TS_HI_RD (R154). -/
def execResTsHiRd (s : State) : Host.Outcome State Fault Refusal := .next (s.returns s.results.resTsHiWord)

/-- DST_MAC_HI_RD (R154). -/
def execDstMacHiRd (s : State) : Host.Outcome State Fault Refusal := .next (s.returns s.results.dstMacHiWord)

/-- DST_MAC_LO_RD (R154). -/
def execDstMacLoRd (s : State) : Host.Outcome State Fault Refusal := .next (s.returns s.results.dstMacLoWord)

/-- SRC_MAC_HI_RD (R154). -/
def execSrcMacHiRd (s : State) : Host.Outcome State Fault Refusal := .next (s.returns s.results.srcMacHiWord)

/-- SRC_MAC_LO_RD (R154). -/
def execSrcMacLoRd (s : State) : Host.Outcome State Fault Refusal := .next (s.returns s.results.srcMacLoWord)

/-- IP_INFO_RD (R154). -/
def execIpInfoRd (s : State) : Host.Outcome State Fault Refusal := .next (s.returns s.results.ipInfoWord)

/-- SRC_IP_RD (R154, R38). -/
def execSrcIpRd (s : State) : Host.Outcome State Fault Refusal := .next (s.returns s.results.srcIp)

/-- DST_IP_RD (R154, R38). -/
def execDstIpRd (s : State) : Host.Outcome State Fault Refusal := .next (s.returns s.results.dstIp)

/-- L4_INFO_RD (R154). -/
def execL4InfoRd (s : State) : Host.Outcome State Fault Refusal := .next (s.returns s.results.l4InfoWord)

/-- PORTS_RD (R154). -/
def execPortsRd (s : State) : Host.Outcome State Fault Refusal := .next (s.returns s.results.portsWord)

/-- TCP_SEQ_RD (R154, R41). -/
def execTcpSeqRd (s : State) : Host.Outcome State Fault Refusal := .next (s.returns s.results.tcpSeq)

/-- TCP_ACK_RD (R154, R41). -/
def execTcpAckRd (s : State) : Host.Outcome State Fault Refusal := .next (s.returns s.results.tcpAck)

/-- UDP_LEN_CSUM_RD (R154). -/
def execUdpLenCsumRd (s : State) : Host.Outcome State Fault Refusal := .next (s.returns s.results.udpLenCsumWord)

/-- REGION0_RD (R154). -/
def execRegion0Rd (s : State) : Host.Outcome State Fault Refusal := .next (s.returns s.results.region0Word)

/-- REGION1_RD (R154). -/
def execRegion1Rd (s : State) : Host.Outcome State Fault Refusal := .next (s.returns s.results.region1Word)

end Sys2Proof.Machine
end

