-- ==== Sys2Proof/Machine/Dispatch.lean ====
section
/-! DEFINITION. The dispatch of an instruction to its meaning, one arm per constructor of Instr. -/

namespace Sys2Proof.Machine

def exec (i : Instr) (s : State) : Host.Outcome State Fault Refusal :=
  match i with
  | .decode => Sys2Proof.Machine.execDecode s
  | .decEth => Sys2Proof.Machine.execDecEth s
  | .decIpv4 => Sys2Proof.Machine.execDecIpv4 s
  | .dispatchTcp => Sys2Proof.Machine.execDispatchTcp s
  | .dispatchUdp => Sys2Proof.Machine.execDispatchUdp s
  | .dispatchUnknown protocol => Sys2Proof.Machine.execDispatchUnknown protocol s
  | .decTcp => Sys2Proof.Machine.execDecTcp s
  | .decUdp => Sys2Proof.Machine.execDecUdp s
  | .engineComplete => Sys2Proof.Machine.execEngineComplete s
  | .halfRefused we addr => Sys2Proof.Machine.execHalfRefused we addr s
  | .size11Refused we addr => Sys2Proof.Machine.execSize11Refused we addr s
  | .bufWr8 addr data => Sys2Proof.Machine.execBufWr8 addr data s
  | .bufWr32 addr data => Sys2Proof.Machine.execBufWr32 addr data s
  | .bufRd8 addr => Sys2Proof.Machine.execBufRd8 addr s
  | .bufRd32 addr => Sys2Proof.Machine.execBufRd32 addr s
  | .regByteRd addr => Sys2Proof.Machine.execRegByteRd addr s
  | .regByteWr addr data => Sys2Proof.Machine.execRegByteWr addr data s
  | .ctrlSrst => Sys2Proof.Machine.execCtrlSrst s
  | .ctrlStart irqEn => Sys2Proof.Machine.execCtrlStart irqEn s
  | .ctrlWr irqEn => Sys2Proof.Machine.execCtrlWr irqEn s
  | .ctrlRd => Sys2Proof.Machine.execCtrlRd s
  | .statusRd => Sys2Proof.Machine.execStatusRd s
  | .statusWr data => Sys2Proof.Machine.execStatusWr data s
  | .lenWr len => Sys2Proof.Machine.execLenWr len s
  | .lenRd => Sys2Proof.Machine.execLenRd s
  | .tsLoWr data => Sys2Proof.Machine.execTsLoWr data s
  | .tsLoRd => Sys2Proof.Machine.execTsLoRd s
  | .tsHiWr data => Sys2Proof.Machine.execTsHiWr data s
  | .tsHiRd => Sys2Proof.Machine.execTsHiRd s
  | .resTsLoRd => Sys2Proof.Machine.execResTsLoRd s
  | .resTsHiRd => Sys2Proof.Machine.execResTsHiRd s
  | .dstMacHiRd => Sys2Proof.Machine.execDstMacHiRd s
  | .dstMacLoRd => Sys2Proof.Machine.execDstMacLoRd s
  | .srcMacHiRd => Sys2Proof.Machine.execSrcMacHiRd s
  | .srcMacLoRd => Sys2Proof.Machine.execSrcMacLoRd s
  | .ipInfoRd => Sys2Proof.Machine.execIpInfoRd s
  | .srcIpRd => Sys2Proof.Machine.execSrcIpRd s
  | .dstIpRd => Sys2Proof.Machine.execDstIpRd s
  | .l4InfoRd => Sys2Proof.Machine.execL4InfoRd s
  | .portsRd => Sys2Proof.Machine.execPortsRd s
  | .tcpSeqRd => Sys2Proof.Machine.execTcpSeqRd s
  | .tcpAckRd => Sys2Proof.Machine.execTcpAckRd s
  | .udpLenCsumRd => Sys2Proof.Machine.execUdpLenCsumRd s
  | .region0Rd => Sys2Proof.Machine.execRegion0Rd s
  | .region1Rd => Sys2Proof.Machine.execRegion1Rd s
  | .resWrLow addr data => Sys2Proof.Machine.execResWrLow addr data s
  | .resWrHigh addr data => Sys2Proof.Machine.execResWrHigh addr data s
  | .rsvdRd addr => Sys2Proof.Machine.execRsvdRd addr s
  | .rsvdWr addr data => Sys2Proof.Machine.execRsvdWr addr data s
  | .unmappedRd width addr => Sys2Proof.Machine.execUnmappedRd width addr s
  | .unmappedWr width addr data => Sys2Proof.Machine.execUnmappedWr width addr data s

end Sys2Proof.Machine
end

