-- ==== Sys2Proof/Machine/Fetch.lean ====
section
/-! DEFINITION. How an instance takes its next event (R62, R203): the event at the head of `inputs` is consumed and takes
effect; with nothing left to come, a BUSY engine completes and a block that is not BUSY rests. -/

namespace Sys2Proof.Machine

/-- Take one event: an operation is decoded and executed, a hardware reset resets (R190). -/
def State.takeEvent (s : State) : Event → Host.Outcome State Fault Refusal
  | .op w =>
    match decode s.params w with
    | .ok i => exec i s
    | .error _ => .refused .undecoded
  | .hardwareReset => .next s.hardReset

/-- With no event left: weak fairness takes ENGINE_COMPLETE while BUSY (R163, R203; log 3); otherwise no step is enabled
and every register keeps its value (R185). -/
def State.rest (s : State) : Host.Outcome State Fault Refusal :=
  match s.phase with
  | .busy => exec .engineComplete s
  | .idle => .next s
  | .done => .next s

/-- The next event of the total order (R62). -/
def State.nextEvent (s : State) : Host.Outcome State Fault Refusal :=
  match s.inputs with
  | [] => s.rest
  | e :: later => State.takeEvent { s with inputs := later } e

/-- Put an event where the next step takes it (log 2). -/
def State.withEvent (s : State) (e : Event) : State := { s with inputs := e :: s.inputs }

/-- Place the word that the bits of `w` stand for; bits that are no word place nothing (log 10). -/
def State.placeWord (s : State) (nbits w : Nat) : State :=
  match readWord nbits w with
  | .ok word => s.withEvent (.op word)
  | .error _ => s

end Sys2Proof.Machine
end

