-- ==== Sys2Proof/Machine/Step.lean ====
section
/-! DEFINITION. The step of an instance: one event of the total order of rule R62. -/

namespace Sys2Proof.Machine

/-- One event. -/
def step (s : State) : Host.Outcome State Fault Refusal := s.nextEvent

/-- `s` with the instruction of the table word placed as the next event (log 2). -/
def State.withFetchWord (s : State) (nbits w : Nat) : State := s.placeWord nbits w

end Sys2Proof.Machine
end

