-- ==== Sys2Proof/Machine/HostNotation.lean ====
section
/-! DEFINITION. The host's notation: the four transaction mnemonics (R82) and the pseudo-instructions (R83) as lists of
events, and when a run has ended (R163). -/

namespace Sys2Proof.Machine

/-- `W8 a, v` (R82). -/
def hostW8 (a : Addr) (v : Byte) : Event := .op (.ht (a.setWidth 19 ||| 0x10000#19) (v.setWidth 32))

/-- `W32 a, v` (R82). -/
def hostW32 (a : Addr) (v : Word) : Event := .op (.ht (a.setWidth 19 ||| 0x50000#19) v)

/-- `R8 a` (R82). -/
def hostR8 (a : Addr) : Event := .op (.ht (a.setWidth 19) 0#32)

/-- `R32 a` (R82). -/
def hostR32 (a : Addr) : Event := .op (.ht (a.setWidth 19 ||| 0x40000#19) 0#32)

/-- The words w_k of LOADFRAME: little-endian lanes, missing bytes 0x00 (R83). -/
def frameWords : List Byte → List Word
  | [] => []
  | [b0] => [packLanes b0 0 0 0]
  | [b0, b1] => [packLanes b0 b1 0 0]
  | [b0, b1, b2] => [packLanes b0 b1 b2 0]
  | b0 :: b1 :: b2 :: b3 :: rest => packLanes b0 b1 b2 b3 :: frameWords rest

/-- `W32 4k, w_k` for each word in turn, the first at address `a` (R83). -/
def storeWords (a : Nat) : List Word → List Event
  | [] => []
  | w :: rest => hostW32 (BitVec.ofNat 16 a) w :: storeWords (a + 4) rest

/-- `LOADFRAME b0 … b(n−1)` (R83). -/
def loadFrame (frame : List Byte) : List Event :=
  storeWords 0 (frameWords frame) ++ [hostW32 0x1008#16 (BitVec.ofNat 32 frame.length)]

/-- `SETTS t` (R83). -/
def setTs (t : BitVec 64) : List Event :=
  [hostW32 0x100C#16 (t.extractLsb' 0 32), hostW32 0x1010#16 (t.extractLsb' 32 32)]

/-- `START` (R83). -/
def hostStart : Event := hostW32 0x1000#16 0x1#32

/-- `START_IE` (R83). -/
def hostStartIe : Event := hostW32 0x1000#16 0x5#32

/-- `SRST` (R83). -/
def hostSrst : Event := hostW32 0x1000#16 0x2#32

/-- The engine's event (R129). -/
def engineEvent : Event := .op (.engine .complete)

/-- `k` steps of one instance, stopping at the first refusal. -/
def runSteps : Nat → State → Host.Outcome State Fault Refusal
  | 0, s => .next s
  | k + 1, s =>
    match step s with
    | .next t => runSteps k t
    | .fault r => .fault r
    | .refused r => .refused r

/-- Give the instance these events, and take them all (R163). -/
def State.runEvents (s : State) (events : List Event) : Host.Outcome State Fault Refusal :=
  runSteps events.length { s with inputs := events }

/-- The run has ended: nothing left to issue, no decode in flight (R163). -/
def State.runEnded (s : State) : Prop := s.inputs = [] ∧ s.phase ≠ .busy

/-! ### WAITDONE and DECODE -/

/-- Go on from a next state; a refusal ends the run (R163). -/
def thenRun (o : Host.Outcome State Fault Refusal) (f : State → Host.Outcome State Fault Refusal) :
    Host.Outcome State Fault Refusal :=
  match o with
  | .next t => f t
  | .fault r => .fault r
  | .refused r => .refused r

/-- `R32 STATUS` (R82, R83). -/
def pollStatus : Event := hostR32 0x1004#16

/-- WAITDONE goes on: `(result & 0x3) = 1` (R83). -/
def stillBusy (result : Word) : Bool := result &&& 0x3#32 == 1#32

/-- `WAITDONE` (R83): repeat `R32 STATUS` until `(result & 0x3) ≠ 1`. The list says, poll by poll, which events of the
engine and of the environment come before that poll. After its end weak fairness takes ENGINE_COMPLETE between the next poll
that sees BUSY and the one after it (R203; log 12). -/
def waitDone : List (List Event) → State → Host.Outcome State Fault Refusal
  | [], s =>
    thenRun (s.runEvents [pollStatus]) fun t =>
      if stillBusy t.rdata then t.runEvents [engineEvent, pollStatus] else .next t
  | events :: later, s =>
    thenRun (s.runEvents (events ++ [pollStatus])) fun t =>
      if stillBusy t.rdata then waitDone later t else .next t

/-- `DECODE b…, t` (R83): LOADFRAME, SETTS, START, then WAITDONE with these events before its polls. -/
def decodeCall (frame : List Byte) (t : BitVec 64) (between : List (List Event)) (s : State) :
    Host.Outcome State Fault Refusal :=
  thenRun (s.runEvents (loadFrame frame ++ setTs t ++ [hostStart])) (waitDone between)

end Sys2Proof.Machine
end

