-- ==== Sys2Proof/Machine/Platform.lean ====
section
/-! DEFINITION. A platform of N_INSTANCES parser instances: each with its own state, nothing shared, nothing ordered
between them (R182, R204; log 11). -/

namespace Sys2Proof.Machine

/-- A platform: at least one instance (R9, R182). -/
structure Platform where
  first  : State
  others : List State
  deriving DecidableEq, Repr

/-- Its instances, in the order of their indices. -/
def Platform.instances (p : Platform) : List State := p.first :: p.others

/-- Replace the state of instance `i`. -/
def Platform.set (p : Platform) (i : Nat) (t : State) : Platform :=
  match i with
  | 0 => { p with first := t }
  | i + 1 => { p with others := p.others.set i t }

/-- Instance `i` right after hardware reset. -/
def resetInstance (p : PlatformParams) (i : Nat) : State := { State.reset with params := p.instanceParams i }

/-- The platform right after hardware reset: N_INSTANCES instances (R9). -/
def Platform.reset (p : PlatformParams) : Platform :=
  ⟨resetInstance p 0, (List.range p.moreInstances).map fun i => resetInstance p (i + 1)⟩

/-- Instance `i` takes its next event; which instance moves next is the platform's choice, and no rule orders it
(R182, U13). An index past the last instance moves nothing. -/
def Platform.stepAt (p : Platform) (i : Nat) : Host.Outcome Platform Fault Refusal :=
  match p.instances[i]? with
  | none => .next p
  | some s =>
    match step s with
    | .next t => .next (p.set i t)
    | .fault r => .fault r
    | .refused r => .refused r

/-- A run of the platform: the list says which instance moves next. -/
def Platform.run (p : Platform) : List Nat → Host.Outcome Platform Fault Refusal
  | [] => .next p
  | i :: moves =>
    match p.stepAt i with
    | .next q => q.run moves
    | .fault r => .fault r
    | .refused r => .refused r

end Sys2Proof.Machine
end

