-- ==== Sys2Proof/Machine/Views.lean ====
section
/-! DEFINITION. The views of a published result: byte ranges of the frame buffer, never copies (R67, R198). -/

namespace Sys2Proof.Machine

/-- A byte range of the frame buffer, given by offset and length (R67). -/
structure View where
  offset : Nat
  length : Nat
  deriving DecidableEq, Repr

/-- The Ethernet header, [0, 14) (R67). -/
def ethView : View := ⟨0, 14⟩

/-- The IPv4 header, [14, L4_OFF) of length IP_HLEN (R67). -/
def Results.ipView (r : Results) : View := ⟨14, r.ipHlen.toNat⟩

/-- The transport header, [L4_OFF, PAYLOAD_OFF) of length L4_HLEN (R67). -/
def Results.transportView (r : Results) : View := ⟨r.l4Off.toNat, r.l4Hlen.toNat⟩

/-- The payload, [PAYLOAD_OFF, PAYLOAD_OFF + PAYLOAD_LEN) (R67). -/
def Results.payloadView (r : Results) : View := ⟨r.payloadOff.toNat, r.payloadLen.toNat⟩

/-- The transport region, [L4_OFF, FRAME_LEN.LEN): the transport header and the payload (R67). Once the host rewrites
FRAME_LEN in DONE it ends at the LEN of now, empty for a LEN below L4_OFF, while the payload view keeps the published
PAYLOAD_LEN (DESIGN CHOICE, log 21). -/
def State.transportRegionView (s : State) : View :=
  ⟨s.results.l4Off.toNat, s.frameLen.toNat - s.results.l4Off.toNat⟩

/-- The buffer's bytes from one offset on; `none` is an unwritten byte. -/
def State.bytesFrom (s : State) (offset : Nat) : Nat → List (Option Byte)
  | 0 => []
  | n + 1 => Memory.read s.fb offset :: s.bytesFrom (offset + 1) n

/-- What the host finds in a view when it reads the buffer (R67, R198). -/
def State.viewBytes (s : State) (v : View) : List (Option Byte) := s.bytesFrom v.offset v.length

end Sys2Proof.Machine
end

