-- ==== Sys2Proof/Safety.lean ====
section
/-! DEFINITION. The terms claims are stated in: the invariant of a block (R27, R28, R31, R133), the frame's fields as
numbers (R70 to R73), when a decode fails (R170), and the duties a host keeps (R162). -/

namespace Sys2Proof.Machine

/-! ### The frame's fields, by offset -/

/-- The `count` bytes of `v`, most significant first, are the bytes of the frame from offset `o` on (R14, R52). -/
def HoldsBytes {w : Nat} (v : BitVec w) (b : Nat → Byte) (o count : Nat) : Prop :=
  ∀ k, k < count → v.extractLsb' (8 * (count - 1 - k)) 8 = b (o + k)

/-- IHL: the bottom nibble of byte 14 (R71). -/
def frameIhl (b : Nat → Byte) : Nat := (b 14).toNat % 16

/-- L4_OFF: 14 + 4 × IHL (R123). -/
def frameL4 (b : Nat → Byte) : Nat := 14 + 4 * frameIhl b

/-- The TCP data offset: the top nibble of byte 12 of the region (R72). -/
def tcpDataOffset (b : Nat → Byte) (l4 : Nat) : Nat := (b (l4 + 12)).toNat / 16

/-- The IPv4 header of an n-byte frame decodes (R101). -/
def IpHeaderFits (b : Nat → Byte) (n : Nat) : Prop := 34 ≤ n ∧ 5 ≤ frameIhl b ∧ 4 * frameIhl b ≤ n - 14

/-- When a decode of n bytes fails, and how: the table of R170, with the order of R174. -/
def FailsWith (b : Nat → Byte) (n : Nat) : ErrKind → Layer → Prop
  | .truncatedFrame, .eth => n < 14
  | .truncatedFrame, .ipv4 => 14 ≤ n ∧ n - 14 < 20
  | .invalidHeaderLength, .ipv4 => 34 ≤ n ∧ (frameIhl b < 5 ∨ n - 14 < 4 * frameIhl b)
  | .truncatedFrame, .tcp => IpHeaderFits b n ∧ b 23 = 6#8 ∧ n - frameL4 b < 20
  | .invalidHeaderLength, .tcp =>
    IpHeaderFits b n ∧ b 23 = 6#8 ∧ 20 ≤ n - frameL4 b ∧
      (tcpDataOffset b (frameL4 b) < 5 ∨ n - frameL4 b < 4 * tcpDataOffset b (frameL4 b))
  | .truncatedFrame, .udp => IpHeaderFits b n ∧ b 23 = 17#8 ∧ n - frameL4 b < 8
  | .invalidHeaderLength, .eth => False
  | .invalidHeaderLength, .udp => False

/-- The code number of a failure kind (R79, R170). -/
def ErrKind.number : ErrKind → Nat
  | .truncatedFrame => 1
  | .invalidHeaderLength => 2

/-- The code number of a layer (R79, R170). -/
def Layer.number : Layer → Nat
  | .eth => 1
  | .ipv4 => 2
  | .tcp => 3
  | .udp => 4

/-! ### The invariant -/

/-- The values STATUS can have (R31). -/
def statusValues : List Word := [0x000, 0x001, 0x006, 0x112, 0x212, 0x222, 0x312, 0x322, 0x412]

/-- The transport fields form a tagged union (R27), with the lengths of R39. -/
def TaggedUnion (r : Results) : Prop :=
  match r.l4Kind with
  | .none => False
  | .tcp =>
    r.unkProto = 0 ∧ r.udpLen = 0 ∧ r.udpCsum = 0 ∧ 5 ≤ r.tcpDoff.toNat ∧ r.l4Hlen.toNat = 4 * r.tcpDoff.toNat
  | .udp => r.unkProto = 0 ∧ r.tcpSeq = 0 ∧ r.tcpAck = 0 ∧ r.tcpDoff = 0 ∧ r.l4Hlen = 8
  | .unknown =>
    r.srcPort = 0 ∧ r.dstPort = 0 ∧ r.tcpSeq = 0 ∧ r.tcpAck = 0 ∧ r.tcpDoff = 0 ∧ r.udpLen = 0 ∧ r.udpCsum = 0 ∧
      r.l4Hlen = 0

/-- What the result fields are while they hold a result (R27, R37, R130, R133). -/
structure Published (limit : Nat) (r : Results) : Prop where
  union : TaggedUnion r
  ihl   : 5 ≤ r.ipIhl.toNat
  hlen  : r.ipHlen.toNat = 4 * r.ipIhl.toNat
  l4    : r.l4Off.toNat = 14 + r.ipHlen.toNat
  poff  : r.payloadOff.toNat = r.l4Off.toNat + r.l4Hlen.toNat
  fits  : r.payloadOff.toNat + r.payloadLen.toNat ≤ limit

/-- The invariant of a block. -/
structure Inv (s : State) : Prop where
  /-- The frame buffer is in canonical form. -/
  memory    : Memory.wf s.fb
  /-- It holds only addresses of the buffer (R23). -/
  buffer    : Memory.within s.params.maxFrame s.fb
  /-- STATUS has one of its values (R31). -/
  status    : s.statusWord ∈ statusValues
  /-- Every result field is 0 unless DONE and OK (R28). -/
  noResult  : ¬(s.phase = .done ∧ s.ok = true) → s.results = Results.cleared
  /-- A published result is one (R27, R133). -/
  result    : s.phase = .done → s.ok = true → Published s.params.maxFrame s.results
  /-- A decode in flight has a frame that fits the buffer (R133, R145). -/
  frameFits : s.phase = .busy → s.frameLen.toNat ≤ s.params.maxFrame

/-- Every register of R29 reads 0, and the block is IDLE (R48). -/
structure RegistersZero (s : State) : Prop where
  ctrl     : s.ctrlWord = 0
  status   : s.statusWord = 0
  idle     : s.phase = .idle
  frameLen : s.frameLen = 0
  ts       : s.ts = 0
  results  : s.results = Results.cleared

/-! ### Host duties -/

/-- A CTRL write with START = 1 and SRST = 0 (R145). -/
def isStart (ht : Selector) (wdata : Word) : Prop := ht &&& 0x7FFFC#19 = 0x51000#19 ∧ wdata &&& 0x3#32 = 0x1#32

/-- An event that the model gives a meaning in this state: a legal SIZE, no START of a frame longer than MAX_FRAME
(R162), and ENGINE_COMPLETE only while it is enabled (R129). -/
def DutyKept (s : State) : Event → Prop
  | .hardwareReset => True
  | .op (.proto8 _) => True
  | .op (.engine row) => row = .complete → s.phase = .busy
  | .op (.ht ht wdata) =>
    selSize ht ≠ 0b01#2 ∧ selSize ht ≠ 0b11#2 ∧
      (isStart ht wdata → s.phase ≠ .busy → s.frameLen.toNat ≤ s.params.maxFrame)

/-- The host's reads: the rows that only return a word (R59). -/
def isHostRead : Instr → Bool
  | .bufRd8 _ | .bufRd32 _ | .regByteRd _ | .ctrlRd | .statusRd | .lenRd | .tsLoRd | .tsHiRd | .resTsLoRd
  | .resTsHiRd | .dstMacHiRd | .dstMacLoRd | .srcMacHiRd | .srcMacLoRd | .ipInfoRd | .srcIpRd | .dstIpRd
  | .l4InfoRd | .portsRd | .tcpSeqRd | .tcpAckRd | .udpLenCsumRd | .region0Rd | .region1Rd | .rsvdRd _
  | .unmappedRd _ _ => true
  | .decode | .decEth | .decIpv4 | .dispatchTcp | .dispatchUdp | .dispatchUnknown _ | .decTcp | .decUdp
  | .engineComplete | .halfRefused _ _ | .size11Refused _ _ | .bufWr8 _ _ | .bufWr32 _ _ | .regByteWr _ _
  | .ctrlSrst | .ctrlStart _ | .ctrlWr _ | .statusWr _ | .lenWr _ | .tsLoWr _ | .tsHiWr _ | .resWrLow _ _
  | .resWrHigh _ _ | .rsvdWr _ _ | .unmappedWr _ _ _ => false

end Sys2Proof.Machine
end

