-- ==== Sys2Proof/Certificates/Slice0/Obligations.lean ====
section
/-! DEFINITION. The statements for the provers. Each docstring names the rule of spec/ it formalises. -/

open Sys2Proof Sys2Proof.Machine

/-! ### Encoding -/

/-- R78, R82 and the opcode table: words written out from the spec decode to the operations they stand for. -/
def Obligations.WrittenOutWordsDecode : Prop :=
  decode Params.default (.ht 0x1002A#19 0x01#32) = .ok (.bufWr8 0x002A#16 0x01#8) ∧
  decode Params.default (.ht 0x50000#19 0x33221100#32) = .ok (.bufWr32 0x0000#16 0x33221100#32) ∧
  decode Params.default (.ht 0x0002A#19 0#32) = .ok (.bufRd8 0x002A#16) ∧
  decode Params.default (.ht 0x40028#19 0#32) = .ok (.bufRd32 0x0028#16) ∧
  decode Params.default (.ht 0x21000#19 0#32) = .ok (.halfRefused false 0x1000#16) ∧
  decode Params.default (.ht 0x70004#19 0#32) = .ok (.size11Refused true 0x0004#16) ∧
  decode Params.default (.ht 0x51000#19 0x3#32) = .ok .ctrlSrst ∧
  decode Params.default (.ht 0x51000#19 0x5#32) = .ok (.ctrlStart true) ∧
  decode Params.default (.ht 0x51000#19 0x4#32) = .ok (.ctrlWr true) ∧
  decode Params.default (.ht 0x41004#19 0#32) = .ok .statusRd ∧
  decode Params.default (.ht 0x51008#19 0xFFFFFFFF#32) = .ok (.lenWr 0xFFFF#16) ∧
  decode Params.default (.ht 0x4105C#19 0#32) = .ok .region1Rd ∧
  decode Params.default (.ht 0x51048#19 0#32) = .ok (.resWrHigh 0x1048#16 0#32) ∧
  decode Params.default (.ht 0x4107C#19 0#32) = .ok (.rsvdRd 0x107C#16) ∧
  decode Params.default (.ht 0x11000#19 0x1#32) = .ok (.regByteWr 0x1000#16 0x1#8) ∧
  decode Params.default (.ht 0x52000#19 0x1#32) = .ok (.unmappedWr .word 0x2000#16 0x1#32) ∧
  decode Params.default (.proto8 6#8) = .ok .dispatchTcp ∧
  decode Params.default (.proto8 17#8) = .ok .dispatchUdp ∧
  decode Params.default (.proto8 1#8) = .ok (.dispatchUnknown 1#8)

/-- Decoding an encoded well-formed instruction gives it back, for every instruction and every MAX_FRAME (R78, R84). -/
def Obligations.DecodeEncodeRoundTrip : Prop :=
  ∀ (p : Params) (i : Instr), i.wellFormed p = true → decode p (encode i) = .ok i

/-- R84: every HT is decoded, and to a well-formed instruction. -/
def Obligations.DecoderIsTotal : Prop :=
  ∀ (p : Params) (w : InstrWord), ∃ i, decode p w = .ok i ∧ i.wellFormed p = true

/-- R77: the protocol byte selects TCP on 6, UDP on 17 and Unknown on every other value. -/
def Obligations.ProtocolByteSelectsDispatch : Prop :=
  ∀ (p : Params) (q : Byte),
    (q.toNat = 6 → decode p (.proto8 q) = .ok .dispatchTcp) ∧
    (q.toNat = 17 → decode p (.proto8 q) = .ok .dispatchUdp) ∧
    (q.toNat ≠ 6 → q.toNat ≠ 17 → decode p (.proto8 q) = .ok (.dispatchUnknown q))

/-! ### The step -/

/-- A step whose next event is a word that decodes to `i` is exec of `i`, with the event consumed (R62). -/
def Obligations.StepRunsDecodedInstruction : Prop :=
  ∀ (s : State) (w : InstrWord) (later : List Event) (i : Instr),
    s.inputs = .op w :: later → decode s.params w = .ok i → step s = exec i { s with inputs := later }

/-- The model's choice (log 1, log 3): with no event left a BUSY block completes and any other block rests. -/
def Obligations.StepWithNothingLeft : Prop :=
  ∀ (s : State), s.inputs = [] →
    (s.phase = .busy → step s = exec .engineComplete s) ∧ (s.phase ≠ .busy → step s = .next s)

/-- R163, R203: a run that is never refused ends: once its events are taken and one more step is made, nothing is left and
no decode is in flight. -/
def Obligations.RunWithoutRefusalEnds : Prop :=
  ∀ (s t : State), runSteps (s.inputs.length + 1) s = .next t → t.runEnded

/-- R18, R177: an event has a next state exactly when the host keeps its duties and ENGINE_COMPLETE is enabled. That
ENGINE_COMPLETE outside BUSY is refused is log 4; that a protocol byte and every other engine row, taken alone, has a next
state in every STATE is the model's choice (log 5). -/
def Obligations.StepCompletesExactlyOnKeptDuties : Prop :=
  ∀ (s : State) (e : Event) (later : List Event), s.inputs = e :: later →
    ((∃ t, step s = .next t) ↔ DutyKept s e)

/-! ### Reset -/

/-- R191: the state right after hardware reset. Every result register's word is 0, every FB byte is unwritten, irq is
0, and a read of an FB byte returns a draw. -/
def Obligations.ResetStateIsAsStated : Prop :=
  RegistersZero State.reset ∧ State.reset.irq = false ∧
  State.reset.results.resTsLoWord = 0 ∧ State.reset.results.resTsHiWord = 0 ∧
  State.reset.results.dstMacHiWord = 0 ∧ State.reset.results.dstMacLoWord = 0 ∧
  State.reset.results.srcMacHiWord = 0 ∧ State.reset.results.srcMacLoWord = 0 ∧
  State.reset.results.ipInfoWord = 0 ∧ State.reset.results.srcIp = 0 ∧ State.reset.results.dstIp = 0 ∧
  State.reset.results.l4InfoWord = 0 ∧ State.reset.results.portsWord = 0 ∧
  State.reset.results.tcpSeq = 0 ∧ State.reset.results.tcpAck = 0 ∧
  State.reset.results.udpLenCsumWord = 0 ∧ State.reset.results.region0Word = 0 ∧
  State.reset.results.region1Word = 0 ∧
  ∀ a : Addr, a.toNat < State.reset.params.maxFrame →
    Memory.read State.reset.fb a.toNat = none ∧
    ∃ t, exec (.bufRd8 a) State.reset = .next t ∧
      t.rdata = (Config.drawByte State.reset.params.drawStream State.reset.draws).setWidth 32

/-- R190: hardware reset, from any state: registers 0, IDLE, the decode in flight abandoned, FB unwritten, irq 0, and host
transactions accepted at once. -/
def Obligations.HardwareResetFromAnyState : Prop :=
  ∀ (s : State) (later : List Event), s.inputs = .hardwareReset :: later →
    ∃ t, step s = .next t ∧ RegistersZero t ∧ t.irq = false ∧ (∀ a, Memory.read t.fb a = none) ∧
      t.inputs = later ∧ t.params = s.params ∧ (∀ u, exec .engineComplete t ≠ .next u) ∧
      ∀ ht wdata rest, later = .op (.ht ht wdata) :: rest → selSize ht ≠ 0b01#2 → selSize ht ≠ 0b11#2 →
        ∃ u, step t = .next u

/-- R146, R193: soft reset does to the registers what hardware reset does, takes priority over START, abandons the decode
in flight, and keeps FB. -/
def Obligations.SoftResetKeepsFrameBuffer : Prop :=
  ∀ (s : State) (ht : Selector) (wdata : Word),
    ht &&& 0x7FFFC#19 = 0x51000#19 → wdata &&& 0x2#32 = 0x2#32 →
    decode s.params (.ht ht wdata) = .ok .ctrlSrst ∧
    ∃ t, exec .ctrlSrst s = .next t ∧ RegistersZero t ∧ t.irq = false ∧ t.fb = s.fb ∧
      t = { s.hardReset with fb := s.fb } ∧ t.rdata = s.rdata ∧ t.draws = s.draws ∧ t.inputs = s.inputs ∧
      t.params = s.params ∧ ∀ u, exec .engineComplete t ≠ .next u

/-! ### The frame buffer -/

/-- R140: BUF_WR8. -/
def Obligations.BufferByteWriteStoresOneByte : Prop :=
  ∀ (s : State) (ht : Selector) (wdata : Word),
    selSize ht = 0b00#2 → selWe ht = true → (selAddr ht).toNat < s.params.maxFrame →
    decode s.params (.ht ht wdata) = .ok (.bufWr8 (selAddr ht) (wdata.extractLsb' 0 8)) ∧
    ∃ t, exec (.bufWr8 (selAddr ht) (wdata.extractLsb' 0 8)) s = .next t ∧
      t = { s with fb := t.fb } ∧
      (s.phase = .busy → t.fb = s.fb) ∧
      (s.phase ≠ .busy →
        Memory.read t.fb (selAddr ht).toNat = some (wdata.extractLsb' 0 8) ∧
        ∀ x, x ≠ (selAddr ht).toNat → Memory.read t.fb x = Memory.read s.fb x)

/-- R141: BUF_WR32 stores lane k of WDATA at w + k, where w is the address with its low two bits cleared. -/
def Obligations.BufferWordWriteStoresFourLanes : Prop :=
  ∀ (s : State) (ht : Selector) (wdata : Word),
    selSize ht = 0b10#2 → selWe ht = true → (selAddr ht).toNat < s.params.maxFrame →
    decode s.params (.ht ht wdata) = .ok (.bufWr32 (selAddr ht) wdata) ∧
    ∃ t, exec (.bufWr32 (selAddr ht) wdata) s = .next t ∧
      t = { s with fb := t.fb } ∧
      (s.phase = .busy → t.fb = s.fb) ∧
      (s.phase ≠ .busy → ∀ w, w = (selAddr ht &&& 0xFFFC#16).toNat →
        (∀ k, k < 4 → Memory.read t.fb (w + k) = some (wdata.extractLsb' (8 * k) 8)) ∧
        ∀ x, (x < w ∨ w + 4 ≤ x) → Memory.read t.fb x = Memory.read s.fb x)

/-- R142: BUF_RD8 returns the byte, or a draw that no later read meets again, in every STATE. -/
def Obligations.BufferByteReadReturnsByte : Prop :=
  ∀ (s : State) (ht : Selector) (wdata : Word),
    selSize ht = 0b00#2 → selWe ht = false → (selAddr ht).toNat < s.params.maxFrame →
    decode s.params (.ht ht wdata) = .ok (.bufRd8 (selAddr ht)) ∧
    ∃ t, exec (.bufRd8 (selAddr ht)) s = .next t ∧
      t = { s with rdata := t.rdata, draws := t.draws } ∧ s.draws < t.draws ∧
      (∀ v, Memory.read s.fb (selAddr ht).toNat = some v → t.rdata = v.setWidth 32) ∧
      (Memory.read s.fb (selAddr ht).toNat = none →
        t.rdata = (Config.drawByte s.params.drawStream s.draws).setWidth 32)

/-- R143: BUF_RD32 returns FB[w+3] ++ FB[w+2] ++ FB[w+1] ++ FB[w], each unwritten byte a draw of its own. -/
def Obligations.BufferWordReadReturnsFourBytes : Prop :=
  ∀ (s : State) (ht : Selector) (wdata : Word),
    selSize ht = 0b10#2 → selWe ht = false → (selAddr ht).toNat < s.params.maxFrame →
    decode s.params (.ht ht wdata) = .ok (.bufRd32 (selAddr ht)) ∧
    ∃ t, exec (.bufRd32 (selAddr ht)) s = .next t ∧
      t = { s with rdata := t.rdata, draws := t.draws } ∧ s.draws + 4 ≤ t.draws ∧
      ∀ k, k < 4 → ∀ w, w = (selAddr ht &&& 0xFFFC#16).toNat →
        (∀ v, Memory.read s.fb (w + k) = some v → t.rdata.extractLsb' (8 * k) 8 = v) ∧
        (Memory.read s.fb (w + k) = none →
          t.rdata.extractLsb' (8 * k) 8 = Config.drawByte s.params.drawStream (s.draws + k))

/-- R68: only BUF_WR8, BUF_WR32 and hardware reset change the frame buffer; the engine never does. -/
def Obligations.OnlyHostWritesChangeFrameBuffer : Prop :=
  ∀ (s t : State) (i : Instr), exec i s = .next t →
    (∀ a v, i ≠ .bufWr8 a v) → (∀ a v, i ≠ .bufWr32 a v) → t.fb = s.fb

/-! ### Control -/

/-- R144, R147: CTRL_WR writes IRQ_EN and nothing else, and irq follows at once; CTRL_RD returns IRQ_EN in bit 2 and 0 in
every other bit. -/
def Obligations.CtrlWriteAndRead : Prop :=
  ∀ (s : State) (ht : Selector) (wdata : Word),
    (ht &&& 0x7FFFC#19 = 0x51000#19 → wdata &&& 0x3#32 = 0x0#32 →
      decode s.params (.ht ht wdata) = .ok (.ctrlWr (wdata.getLsbD 2)) ∧
      ∃ t, exec (.ctrlWr (wdata.getLsbD 2)) s = .next t ∧ t = { s with irqEn := wdata.getLsbD 2 } ∧
        t.irq = (decide (s.phase = .done) && wdata.getLsbD 2)) ∧
    (ht &&& 0x7FFFC#19 = 0x41000#19 →
      decode s.params (.ht ht wdata) = .ok .ctrlRd ∧
      ∃ t, exec .ctrlRd s = .next t ∧ t = { s with rdata := t.rdata } ∧
        ∀ k, k < 32 → t.rdata.getLsbD k = (decide (k = 2) && s.irqEn))

/-- R145: CTRL_START. While BUSY only IRQ_EN is written; with LEN > MAX_FRAME it is refused; otherwise a decode starts:
BUSY, STATUS and results cleared, irq down, ENGINE_COMPLETE enabled; with LEN = 0 that one fails at ETH. -/
def Obligations.StartBeginsDecode : Prop :=
  ∀ (s : State) (ht : Selector) (wdata : Word),
    ht &&& 0x7FFFC#19 = 0x51000#19 → wdata &&& 0x3#32 = 0x1#32 →
    decode s.params (.ht ht wdata) = .ok (.ctrlStart (wdata.getLsbD 2)) ∧
    (s.phase = .busy →
      ∃ t, exec (.ctrlStart (wdata.getLsbD 2)) s = .next t ∧ t = { s with irqEn := wdata.getLsbD 2 }) ∧
    (s.phase ≠ .busy → s.params.maxFrame < s.frameLen.toNat →
      exec (.ctrlStart (wdata.getLsbD 2)) s = .refused .frameTooLong) ∧
    (s.phase ≠ .busy → s.frameLen.toNat ≤ s.params.maxFrame →
      ∃ t u, exec (.ctrlStart (wdata.getLsbD 2)) s = .next t ∧
        t = { s with irqEn := wdata.getLsbD 2, results := Results.cleared, phase := .busy, ok := false, err := none,
                     layer := none, engine := t.engine } ∧
        t.statusWord = 0x001#32 ∧ t.irq = false ∧ exec .engineComplete t = .next u ∧
        (s.frameLen = 0 → u.statusWord = 0x112#32))

/-- R148 with the codes of R79: STATUS_RD returns LAYER ++ ERR ++ 0 ++ OK ++ STATE, one of the values of R31, without a
side effect. -/
def Obligations.StatusReadReturnsFields : Prop :=
  ∀ (s : State) (ht : Selector) (wdata : Word), ht &&& 0x7FFFC#19 = 0x41004#19 →
    decode s.params (.ht ht wdata) = .ok .statusRd ∧
    ∃ t, exec .statusRd s = .next t ∧ t = { s with rdata := t.rdata } ∧
      t.rdata.extractLsb' 0 2 = (match s.phase with | .idle => 0 | .busy => 1 | .done => 2) ∧
      t.rdata.getLsbD 2 = s.ok ∧ t.rdata.getLsbD 3 = false ∧
      t.rdata.extractLsb' 4 4 =
        (match s.err with | none => 0 | some .truncatedFrame => 1 | some .invalidHeaderLength => 2) ∧
      t.rdata.extractLsb' 8 4 =
        (match s.layer with | none => 0 | some .eth => 1 | some .ipv4 => 2 | some .tcp => 3 | some .udp => 4) ∧
      t.rdata.extractLsb' 12 20 = 0 ∧ (Inv s → t.rdata ∈ statusValues)

/-- R149, R150: LEN_WR writes LEN unless BUSY, whatever the value; LEN_RD returns LEN, zero-extended. -/
def Obligations.FrameLengthWriteAndRead : Prop :=
  ∀ (s : State) (ht : Selector) (wdata : Word),
    (ht &&& 0x7FFFC#19 = 0x51008#19 →
      decode s.params (.ht ht wdata) = .ok (.lenWr (wdata.extractLsb' 0 16)) ∧
      ∃ t, exec (.lenWr (wdata.extractLsb' 0 16)) s = .next t ∧
        (s.phase = .busy → t = s) ∧ (s.phase ≠ .busy → t = { s with frameLen := wdata.extractLsb' 0 16 })) ∧
    (ht &&& 0x7FFFC#19 = 0x41008#19 →
      decode s.params (.ht ht wdata) = .ok .lenRd ∧
      ∃ t, exec .lenRd s = .next t ∧ t = { s with rdata := t.rdata } ∧ t.rdata.toNat = s.frameLen.toNat)

/-- R151, R152, R153: TS_LO_WR writes TS[31:0] and TS_HI_WR writes TS[63:32], unless BUSY; TS_LO_RD and TS_HI_RD return
the halves. -/
def Obligations.TimestampWriteAndRead : Prop :=
  ∀ (s : State) (ht : Selector) (wdata : Word),
    (ht &&& 0x7FFFC#19 = 0x5100C#19 →
      decode s.params (.ht ht wdata) = .ok (.tsLoWr wdata) ∧
      ∃ t, exec (.tsLoWr wdata) s = .next t ∧ (s.phase = .busy → t = s) ∧
        (s.phase ≠ .busy → t = { s with ts := t.ts } ∧ t.ts.extractLsb' 0 32 = wdata ∧
          t.ts.extractLsb' 32 32 = s.ts.extractLsb' 32 32)) ∧
    (ht &&& 0x7FFFC#19 = 0x51010#19 →
      decode s.params (.ht ht wdata) = .ok (.tsHiWr wdata) ∧
      ∃ t, exec (.tsHiWr wdata) s = .next t ∧ (s.phase = .busy → t = s) ∧
        (s.phase ≠ .busy → t = { s with ts := t.ts } ∧ t.ts.extractLsb' 32 32 = wdata ∧
          t.ts.extractLsb' 0 32 = s.ts.extractLsb' 0 32)) ∧
    (ht &&& 0x7FFFC#19 = 0x4100C#19 →
      decode s.params (.ht ht wdata) = .ok .tsLoRd ∧
      ∃ t, exec .tsLoRd s = .next t ∧ t = { s with rdata := t.rdata } ∧ t.rdata.toNat = s.ts.toNat % 2 ^ 32) ∧
    (ht &&& 0x7FFFC#19 = 0x41010#19 →
      decode s.params (.ht ht wdata) = .ok .tsHiRd ∧
      ∃ t, exec .tsHiRd s = .next t ∧ t = { s with rdata := t.rdata } ∧ t.rdata.toNat = s.ts.toNat / 2 ^ 32)

/-- R46: irq is a level, a function of the state: it rises when ENGINE_COMPLETE sets DONE with IRQ_EN 1 and when IRQ_EN is
set in DONE, and at nothing else; it falls on START, soft reset, hardware reset and a CTRL write with IRQ_EN = 0, and on
nothing else. -/
def Obligations.InterruptRisesAndFalls : Prop :=
  (∀ (s t : State) (i : Instr), exec i s = .next t →
    (t.irq = true ↔ t.phase = .done ∧ t.irqEn = true) ∧
    (i = .engineComplete → t.irq = s.irqEn) ∧
    (i = .ctrlWr true → s.phase = .done → t.irq = true) ∧
    (s.irq = false → t.irq = true →
      (i = .engineComplete ∧ s.irqEn = true) ∨ (i = .ctrlWr true ∧ s.phase = .done)) ∧
    ((i = .ctrlSrst ∨ i = .ctrlWr false ∨ ∃ e, i = .ctrlStart e) → t.irq = false) ∧
    (s.irq = true → t.irq = false → i = .ctrlSrst ∨ i = .ctrlWr false ∨ ∃ e, i = .ctrlStart e)) ∧
  (∀ (s t : State) (later : List Event), s.inputs = .hardwareReset :: later → step s = .next t → t.irq = false)

/-! ### Whole-machine rules -/

/-- R22: the transitions of STATE, and there are no others. -/
def Obligations.StateTransitionsAreTheListed : Prop :=
  (∀ (s t : State) (i : Instr), exec i s = .next t →
    (∀ e, i = .ctrlStart e → t.phase = .busy) ∧
    (i = .engineComplete → s.phase = .busy ∧ t.phase = .done) ∧
    (i = .ctrlSrst → t.phase = .idle) ∧
    (t.phase ≠ s.phase →
      (t.phase = .busy ∧ s.phase ≠ .busy ∧ ∃ e, i = .ctrlStart e) ∨
      (t.phase = .done ∧ s.phase = .busy ∧ i = .engineComplete) ∨
      (t.phase = .idle ∧ i = .ctrlSrst))) ∧
  (∀ (s t : State) (later : List Event), s.inputs = .hardwareReset :: later → step s = .next t → t.phase = .idle)

/-- R47: hardware reset, soft reset, an accepted START and ENGINE_COMPLETE write STATE, OK, ERR and LAYER as the table
says; nothing else does. -/
def Obligations.StatusWritersAreTheListed : Prop :=
  (∀ (s t : State) (i : Instr), exec i s = .next t →
    (i = .ctrlSrst → t.phase = .idle ∧ t.ok = false ∧ t.err = none ∧ t.layer = none) ∧
    (∀ e, i = .ctrlStart e → s.phase ≠ .busy →
      t.phase = .busy ∧ t.ok = false ∧ t.err = none ∧ t.layer = none) ∧
    (i = .engineComplete → s.phase = .busy ∧ t.phase = .done ∧
      (∀ p, decodeFrame s.byteAt s.frameLen.toNat s.ts = .ok p → t.ok = true ∧ t.err = none ∧ t.layer = none) ∧
      (∀ k l, decodeFrame s.byteAt s.frameLen.toNat s.ts = .fail k l →
        t.ok = false ∧ t.err = some k ∧ t.layer = some l)) ∧
    (i ≠ .ctrlSrst → i ≠ .engineComplete → (∀ e, i = .ctrlStart e → s.phase = .busy) →
      t.phase = s.phase ∧ t.ok = s.ok ∧ t.err = s.err ∧ t.layer = s.layer)) ∧
  (∀ (s t : State) (later : List Event), s.inputs = .hardwareReset :: later → step s = .next t →
    t.phase = .idle ∧ t.ok = false ∧ t.err = none ∧ t.layer = none)

/-- R197: a result stays until the next accepted START, SRST or reset, which clears it; only a completion from BUSY writes
a result, and no write to the frame buffer touches it (R198). -/
def Obligations.ResultsLastUntilStartOrReset : Prop :=
  (∀ (s t : State) (i : Instr), exec i s = .next t →
    (∀ e, i = .ctrlStart e → s.phase ≠ .busy → t.results = Results.cleared) ∧
    (i = .ctrlSrst → t.results = Results.cleared) ∧
    (i = .engineComplete → s.phase = .busy) ∧
    (i ≠ .ctrlSrst → i ≠ .engineComplete → (∀ e, i = .ctrlStart e → s.phase = .busy) → t.results = s.results)) ∧
  (∀ (s t : State) (later : List Event), s.inputs = .hardwareReset :: later → step s = .next t →
    t.results = Results.cleared)

/-- R199: while BUSY every write to FB, FRAME_LEN, TS_LO and TS_HI is ignored, and no operation but SRST changes them: the
decode sees its inputs as they stood. -/
def Obligations.InputsFrozenWhileBusy : Prop :=
  ∀ (s : State), s.phase = .busy →
    (∀ (a : Addr) (v : Byte), exec (.bufWr8 a v) s = .next s) ∧
    (∀ (a : Addr) (v : Word), exec (.bufWr32 a v) s = .next s) ∧
    (∀ len, exec (.lenWr len) s = .next s) ∧ (∀ v, exec (.tsLoWr v) s = .next s) ∧
    (∀ v, exec (.tsHiWr v) s = .next s) ∧
    ∀ (t : State) (i : Instr), exec i s = .next t →
      t.fb = s.fb ∧ (i ≠ .ctrlSrst → t.frameLen = s.frameLen ∧ t.ts = s.ts)

/-- R59: no read has a side effect: nothing but what it returns, and the draw counter, changes. -/
def Obligations.ReadsHaveNoSideEffect : Prop :=
  ∀ (s : State) (i : Instr), isHostRead i = true →
    ∃ t, exec i s = .next t ∧ t = { s with rdata := t.rdata, draws := t.draws }

/-- R59: writes to FB, FRAME_LEN and TS, and SRST, are idempotent: the same write again changes nothing more. -/
def Obligations.WritesAreIdempotent : Prop :=
  ∀ (s : State) (a : Addr) (b : Byte) (v : Word) (len : BitVec 16) (i : Instr),
    i ∈ [Instr.bufWr8 a b, .bufWr32 a v, .lenWr len, .tsLoWr v, .tsHiWr v, .ctrlSrst] →
    ∃ t, exec i s = .next t ∧ exec i t = .next t

/-- R196, R28: while BUSY every result register reads 0. -/
def Obligations.ResultsReadZeroWhileBusy : Prop :=
  ∀ (s : State), Inv s → s.phase = .busy →
    ∀ i, i ∈ [Instr.resTsLoRd, .resTsHiRd, .dstMacHiRd, .dstMacLoRd, .srcMacHiRd, .srcMacLoRd, .ipInfoRd, .srcIpRd,
      .dstIpRd, .l4InfoRd, .portsRd, .tcpSeqRd, .tcpAckRd, .udpLenCsumRd, .region0Rd, .region1Rd] →
    ∃ t, exec i s = .next t ∧ t = { s with rdata := t.rdata } ∧ t.rdata = 0#32

/-! ### Results -/

/-- R154 with R34 to R38: the reads of RES_TS, DST_MAC, SRC_MAC, IP_INFO, SRC_IP and DST_IP. -/
def Obligations.ResultReadsOfLinkAndNetworkFields : Prop :=
  ∀ (s : State) (wdata : Word) (low : BitVec 2),
    (∃ t, decode s.params (.ht (0x41020#19 ||| low.setWidth 19) wdata) = .ok .resTsLoRd ∧
      exec .resTsLoRd s = .next t ∧ t = { s with rdata := t.rdata } ∧
      t.rdata.toNat = s.results.resTs.toNat % 2 ^ 32) ∧
    (∃ t, decode s.params (.ht (0x41024#19 ||| low.setWidth 19) wdata) = .ok .resTsHiRd ∧
      exec .resTsHiRd s = .next t ∧ t = { s with rdata := t.rdata } ∧
      t.rdata.toNat = s.results.resTs.toNat / 2 ^ 32) ∧
    (∃ t, decode s.params (.ht (0x41028#19 ||| low.setWidth 19) wdata) = .ok .dstMacHiRd ∧
      exec .dstMacHiRd s = .next t ∧ t = { s with rdata := t.rdata } ∧
      t.rdata.toNat = s.results.dstMac.toNat / 2 ^ 32) ∧
    (∃ t, decode s.params (.ht (0x4102C#19 ||| low.setWidth 19) wdata) = .ok .dstMacLoRd ∧
      exec .dstMacLoRd s = .next t ∧ t = { s with rdata := t.rdata } ∧
      t.rdata.toNat = s.results.dstMac.toNat % 2 ^ 32) ∧
    (∃ t, decode s.params (.ht (0x41030#19 ||| low.setWidth 19) wdata) = .ok .srcMacHiRd ∧
      exec .srcMacHiRd s = .next t ∧ t = { s with rdata := t.rdata } ∧
      t.rdata.toNat = s.results.srcMac.toNat / 2 ^ 32) ∧
    (∃ t, decode s.params (.ht (0x41034#19 ||| low.setWidth 19) wdata) = .ok .srcMacLoRd ∧
      exec .srcMacLoRd s = .next t ∧ t = { s with rdata := t.rdata } ∧
      t.rdata.toNat = s.results.srcMac.toNat % 2 ^ 32) ∧
    (∃ t, decode s.params (.ht (0x41038#19 ||| low.setWidth 19) wdata) = .ok .ipInfoRd ∧
      exec .ipInfoRd s = .next t ∧ t = { s with rdata := t.rdata } ∧
      t.rdata.extractLsb' 0 4 = s.results.ipIhl ∧ t.rdata.extractLsb' 4 4 = s.results.ipVer ∧
      t.rdata.extractLsb' 8 8 = s.results.ipProto ∧ t.rdata.extractLsb' 16 6 = s.results.ipHlen ∧
      t.rdata.extractLsb' 22 10 = 0) ∧
    (∃ t, decode s.params (.ht (0x4103C#19 ||| low.setWidth 19) wdata) = .ok .srcIpRd ∧
      exec .srcIpRd s = .next t ∧ t = { s with rdata := t.rdata } ∧ t.rdata = s.results.srcIp) ∧
    (∃ t, decode s.params (.ht (0x41040#19 ||| low.setWidth 19) wdata) = .ok .dstIpRd ∧
      exec .dstIpRd s = .next t ∧ t = { s with rdata := t.rdata } ∧ t.rdata = s.results.dstIp)

/-- R154 with R39 to R44: the reads of L4_INFO, PORTS, TCP_SEQ, TCP_ACK, UDP_LEN_CSUM, REGION0 and REGION1. -/
def Obligations.ResultReadsOfTransportFields : Prop :=
  ∀ (s : State) (wdata : Word) (low : BitVec 2),
    (∃ t, decode s.params (.ht (0x41044#19 ||| low.setWidth 19) wdata) = .ok .l4InfoRd ∧
      exec .l4InfoRd s = .next t ∧ t = { s with rdata := t.rdata } ∧
      t.rdata.extractLsb' 0 2 =
        (match s.results.l4Kind with | .none => 0 | .tcp => 1 | .udp => 2 | .unknown => 3) ∧
      t.rdata.extractLsb' 2 6 = 0 ∧
      t.rdata.extractLsb' 8 8 = s.results.unkProto ∧ t.rdata.extractLsb' 16 6 = s.results.l4Hlen ∧
      t.rdata.extractLsb' 22 2 = 0 ∧ t.rdata.extractLsb' 24 4 = s.results.tcpDoff ∧
      t.rdata.extractLsb' 28 4 = 0) ∧
    (∃ t, decode s.params (.ht (0x41048#19 ||| low.setWidth 19) wdata) = .ok .portsRd ∧
      exec .portsRd s = .next t ∧ t = { s with rdata := t.rdata } ∧
      t.rdata.extractLsb' 16 16 = s.results.srcPort ∧ t.rdata.extractLsb' 0 16 = s.results.dstPort) ∧
    (∃ t, decode s.params (.ht (0x4104C#19 ||| low.setWidth 19) wdata) = .ok .tcpSeqRd ∧
      exec .tcpSeqRd s = .next t ∧ t = { s with rdata := t.rdata } ∧ t.rdata = s.results.tcpSeq) ∧
    (∃ t, decode s.params (.ht (0x41050#19 ||| low.setWidth 19) wdata) = .ok .tcpAckRd ∧
      exec .tcpAckRd s = .next t ∧ t = { s with rdata := t.rdata } ∧ t.rdata = s.results.tcpAck) ∧
    (∃ t, decode s.params (.ht (0x41054#19 ||| low.setWidth 19) wdata) = .ok .udpLenCsumRd ∧
      exec .udpLenCsumRd s = .next t ∧ t = { s with rdata := t.rdata } ∧
      t.rdata.extractLsb' 16 16 = s.results.udpLen ∧ t.rdata.extractLsb' 0 16 = s.results.udpCsum) ∧
    (∃ t, decode s.params (.ht (0x41058#19 ||| low.setWidth 19) wdata) = .ok .region0Rd ∧
      exec .region0Rd s = .next t ∧ t = { s with rdata := t.rdata } ∧
      t.rdata.extractLsb' 0 16 = s.results.l4Off ∧ t.rdata.extractLsb' 16 16 = s.results.payloadOff) ∧
    (∃ t, decode s.params (.ht (0x4105C#19 ||| low.setWidth 19) wdata) = .ok .region1Rd ∧
      exec .region1Rd s = .next t ∧ t = { s with rdata := t.rdata } ∧
      t.rdata.extractLsb' 0 16 = s.results.payloadLen ∧ t.rdata.extractLsb' 16 16 = 0)

/-! ### Accesses without an effect -/

/-- R155: a word write to STATUS or to a result register is decoded as such and changes nothing. -/
def Obligations.ReadOnlyRegisterWritesAreIgnored : Prop :=
  ∀ (s : State) (ht : Selector) (wdata : Word),
    (ht &&& 0x7FFFC#19 = 0x51004#19 →
      decode s.params (.ht ht wdata) = .ok (.statusWr wdata) ∧ exec (.statusWr wdata) s = .next s) ∧
    (ht &&& 0x7FFE0#19 = 0x51020#19 →
      decode s.params (.ht ht wdata) = .ok (.resWrLow (selAddr ht) wdata) ∧
      exec (.resWrLow (selAddr ht) wdata) s = .next s) ∧
    (ht &&& 0x7FFE0#19 = 0x51040#19 →
      decode s.params (.ht ht wdata) = .ok (.resWrHigh (selAddr ht) wdata) ∧
      exec (.resWrHigh (selAddr ht) wdata) s = .next s)

/-- R156, R157: a legal-width read of a reserved or unmapped address returns 0, a write changes nothing. -/
def Obligations.ReservedAndUnmappedAccessesAreInert : Prop :=
  ∀ (s : State) (ht : Selector) (wdata : Word),
    (selSize ht = 0b10#2 →
      ((0x1014 ≤ (selAddr ht).toNat ∧ (selAddr ht).toNat < 0x1020) ∨
       (0x1060 ≤ (selAddr ht).toNat ∧ (selAddr ht).toNat < 0x1080)) →
      (selWe ht = false → decode s.params (.ht ht wdata) = .ok (.rsvdRd (selAddr ht)) ∧
        exec (.rsvdRd (selAddr ht)) s = .next { s with rdata := 0#32 }) ∧
      (selWe ht = true → decode s.params (.ht ht wdata) = .ok (.rsvdWr (selAddr ht) wdata) ∧
        exec (.rsvdWr (selAddr ht) wdata) s = .next s)) ∧
    (selSize ht ≠ 0b01#2 → selSize ht ≠ 0b11#2 → s.params.maxFrame ≤ (selAddr ht).toNat →
      ((selAddr ht).toNat < 0x1000 ∨ 0x1080 ≤ (selAddr ht).toNat) →
      (selWe ht = false → decode s.params (.ht ht wdata) = .ok (.unmappedRd (selWidth ht) (selAddr ht)) ∧
        exec (.unmappedRd (selWidth ht) (selAddr ht)) s = .next { s with rdata := 0#32 }) ∧
      (selWe ht = true → decode s.params (.ht ht wdata) = .ok (.unmappedWr (selWidth ht) (selAddr ht) wdata) ∧
        exec (.unmappedWr (selWidth ht) (selAddr ht) wdata) s = .next s))

/-- R159, R160, R61: a byte access to the register window reads 0 or changes nothing. -/
def Obligations.RegisterByteAccessesAreInert : Prop :=
  ∀ (s : State) (ht : Selector) (wdata : Word),
    (ht &&& 0x7FF80#19 = 0x01000#19 →
      decode s.params (.ht ht wdata) = .ok (.regByteRd (selAddr ht)) ∧
      exec (.regByteRd (selAddr ht)) s = .next { s with rdata := 0#32 }) ∧
    (ht &&& 0x7FF80#19 = 0x11000#19 →
      decode s.params (.ht ht wdata) = .ok (.regByteWr (selAddr ht) (wdata.extractLsb' 0 8)) ∧
      exec (.regByteWr (selAddr ht) (wdata.extractLsb' 0 8)) s = .next s)

/-- R158: a transaction with SIZE = 01 or SIZE = 11 is refused, at every address and in every state. -/
def Obligations.OddSizesAreRefused : Prop :=
  ∀ (s : State) (ht : Selector) (wdata : Word),
    (selSize ht = 0b01#2 →
      decode s.params (.ht ht wdata) = .ok (.halfRefused (selWe ht) (selAddr ht)) ∧
      exec (.halfRefused (selWe ht) (selAddr ht)) s = .refused .badSize) ∧
    (selSize ht = 0b11#2 →
      decode s.params (.ht ht wdata) = .ok (.size11Refused (selWe ht) (selAddr ht)) ∧
      exec (.size11Refused (selWe ht) (selAddr ht)) s = .refused .badSize)

/-! ### The codecs as functions of the frame -/

/-- R100: DEC_ETH. -/
def Obligations.EthernetCodec : Prop :=
  ∀ (b : Nat → Byte) (n : Nat),
    (n < 14 → decEth b n = .fail .truncatedFrame .eth) ∧
    (14 ≤ n → ∃ h, decEth b n = .ok h ∧ HoldsBytes h.dstMac b 0 6 ∧ HoldsBytes h.srcMac b 6 6)

/-- R101: DEC_IPV4. -/
def Obligations.Ipv4Codec : Prop :=
  ∀ (b : Nat → Byte) (m : Nat),
    (m < 20 → decIpv4 b m = .fail .truncatedFrame .ipv4) ∧
    (20 ≤ m → (frameIhl b < 5 ∨ m < 4 * frameIhl b) → decIpv4 b m = .fail .invalidHeaderLength .ipv4) ∧
    (20 ≤ m → 5 ≤ frameIhl b → 4 * frameIhl b ≤ m →
      ∃ h, decIpv4 b m = .ok h ∧ h.ver.toNat = (b 14).toNat / 16 ∧ h.ihl.toNat = frameIhl b ∧
        h.hlen.toNat = 4 * frameIhl b ∧ h.protocol = b 23 ∧ HoldsBytes h.srcIp b 26 4 ∧ HoldsBytes h.dstIp b 30 4)

/-- R102: DEC_TCP. -/
def Obligations.TcpCodec : Prop :=
  ∀ (b : Nat → Byte) (l4 r : Nat),
    (r < 20 → decTcp b l4 r = .fail .truncatedFrame .tcp) ∧
    (20 ≤ r → (tcpDataOffset b l4 < 5 ∨ r < 4 * tcpDataOffset b l4) →
      decTcp b l4 r = .fail .invalidHeaderLength .tcp) ∧
    (20 ≤ r → 5 ≤ tcpDataOffset b l4 → 4 * tcpDataOffset b l4 ≤ r →
      ∃ h, decTcp b l4 r = .ok h ∧ HoldsBytes h.srcPort b l4 2 ∧ HoldsBytes h.dstPort b (l4 + 2) 2 ∧
        HoldsBytes h.seq b (l4 + 4) 4 ∧ HoldsBytes h.ack b (l4 + 8) 4 ∧ h.doff.toNat = tcpDataOffset b l4 ∧
        h.tlen.toNat = 4 * tcpDataOffset b l4)

/-- R103: DEC_UDP. -/
def Obligations.UdpCodec : Prop :=
  ∀ (b : Nat → Byte) (l4 r : Nat),
    (r < 8 → decUdp b l4 r = .fail .truncatedFrame .udp) ∧
    (8 ≤ r →
      ∃ h, decUdp b l4 r = .ok h ∧ HoldsBytes h.srcPort b l4 2 ∧ HoldsBytes h.dstPort b (l4 + 2) 2 ∧
        HoldsBytes h.length b (l4 + 4) 2 ∧ HoldsBytes h.checksum b (l4 + 6) 2)

/-- R105: after the check that guards it, each codec reads no byte past the highest index of the table, which is below
n; a decode reads no byte at or past n. -/
def Obligations.NoByteReadPastFrame : Prop :=
  ∀ (b c : Nat → Byte) (n l4 : Nat) (ts : BitVec 64),
    (n < 14 → decEth b n = decEth c n) ∧
    ((∀ i, i ≤ 11 → b i = c i) → decEth b n = decEth c n) ∧
    (n - 14 < 20 → decIpv4 b (n - 14) = decIpv4 c (n - 14)) ∧
    ((∀ i, i ≤ 33 → b i = c i) → decIpv4 b (n - 14) = decIpv4 c (n - 14)) ∧
    (n - l4 < 20 → decTcp b l4 (n - l4) = decTcp c l4 (n - l4)) ∧
    ((∀ i, i ≤ l4 + 12 → b i = c i) → decTcp b l4 (n - l4) = decTcp c l4 (n - l4)) ∧
    (n - l4 < 8 → decUdp b l4 (n - l4) = decUdp c l4 (n - l4)) ∧
    ((∀ i, i ≤ l4 + 7 → b i = c i) → decUdp b l4 (n - l4) = decUdp c l4 (n - l4)) ∧
    ((∀ i, i < n → b i = c i) → decodeFrame b n ts = decodeFrame c n ts)

/-- R106: the result of a decode depends only on the bytes the codecs read: not on Ethernet bytes 12 and 13, on the
unread IPv4 bytes and options, on the low nibble of TCP byte 12 and TCP bytes 13 on, nor on the payload. -/
def Obligations.UnreadBytesDoNotMatter : Prop :=
  ∀ (b c : Nat → Byte) (n : Nat) (ts : BitVec 64),
    (∀ i, i ≤ 11 → b i = c i) → b 14 = c 14 → b 23 = c 23 → (∀ i, 26 ≤ i → i ≤ 33 → b i = c i) →
    (b 23 = 6#8 → (∀ i, i < 12 → b (frameL4 b + i) = c (frameL4 b + i)) ∧
      tcpDataOffset b (frameL4 b) = tcpDataOffset c (frameL4 b)) →
    (b 23 = 17#8 → ∀ i, i < 8 → b (frameL4 b + i) = c (frameL4 b + i)) →
    decodeFrame b n ts = decodeFrame c n ts

/-- R133: the arithmetic of DECODE stays in its ranges: a decode in flight has n ≤ MAX_FRAME ≤ 4096, and a successful
DECODE has every length and offset in the range the rule gives. -/
def Obligations.DecodeArithmeticInRange : Prop :=
  (∀ (s : State), Inv s → s.phase = .busy → s.frameLen.toNat ≤ s.params.maxFrame ∧ s.params.maxFrame ≤ 4096) ∧
  ∀ (b : Nat → Byte) (n : Nat) (ts : BitVec 64) (p : Packet), decodeFrame b n ts = .ok p →
    14 ≤ n ∧ 20 ≤ p.ip.hlen.toNat ∧ p.ip.hlen.toNat ≤ 60 ∧ p.ip.hlen.toNat % 4 = 0 ∧ p.ip.hlen.toNat ≤ n - 14 ∧
    p.l4 = 14 + p.ip.hlen.toNat ∧ 34 ≤ p.l4 ∧ p.l4 ≤ 74 ∧ p.l4 ≤ n ∧
    p.poff = p.l4 + p.transport.hlen.toNat ∧ p.poff ≤ n ∧ p.plen = n - p.poff ∧ p.plen ≤ n - 34 ∧
    (∀ h, p.transport = .tcp h →
      20 ≤ h.tlen.toNat ∧ h.tlen.toNat ≤ 60 ∧ h.tlen.toNat % 4 = 0 ∧ h.tlen.toNat ≤ n - p.l4) ∧
    (∀ h, p.transport = .udp h → 8 ≤ n - p.l4 ∧ p.poff = p.l4 + 8) ∧
    (∀ q, p.transport = .unknown q → p.poff = p.l4)

/-- R120 to R128: DECODE in sequence; protocol 6 is TCP, 17 is UDP, every other value a success as Unknown that reads
no transport byte (R126, R172). -/
def Obligations.DecodeSequencesLayers : Prop :=
  ∀ (b : Nat → Byte) (n : Nat) (ts : BitVec 64),
    (∀ k l, decEth b n = .fail k l → decodeFrame b n ts = .fail k l) ∧
    ∀ eth, decEth b n = .ok eth →
      (∀ k l, decIpv4 b (n - 14) = .fail k l → decodeFrame b n ts = .fail k l) ∧
      ∀ ip, decIpv4 b (n - 14) = .ok ip → ∀ l4, l4 = 14 + ip.hlen.toNat →
        (ip.protocol = 6#8 →
          (∀ k l, decTcp b l4 (n - l4) = .fail k l → decodeFrame b n ts = .fail k l) ∧
          (∀ h, decTcp b l4 (n - l4) = .ok h → decodeFrame b n ts =
            .ok ⟨eth, ip, .tcp h, l4, l4 + h.tlen.toNat, n - (l4 + h.tlen.toNat), ts⟩)) ∧
        (ip.protocol = 17#8 →
          (∀ k l, decUdp b l4 (n - l4) = .fail k l → decodeFrame b n ts = .fail k l) ∧
          (∀ h, decUdp b l4 (n - l4) = .ok h → decodeFrame b n ts =
            .ok ⟨eth, ip, .udp h, l4, l4 + 8, n - (l4 + 8), ts⟩)) ∧
        (ip.protocol ≠ 6#8 → ip.protocol ≠ 17#8 →
          decodeFrame b n ts = .ok ⟨eth, ip, .unknown ip.protocol, l4, l4, n - l4, ts⟩)

/-! ### ENGINE_COMPLETE -/

/-- R129: ENGINE_COMPLETE is enabled iff STATE = BUSY; it publishes what DECODE returns and leaves every input. The draw
of offset i has index `draws + i` (log 7), and the counter moves past every offset of the frame: no later read meets one of
its draws again (R23). -/
def Obligations.EngineCompletePublishesDecode : Prop :=
  ∀ (s : State),
    (s.phase ≠ .busy → ∀ u, exec .engineComplete s ≠ .next u) ∧
    (s.phase = .busy → ∃ t, exec .engineComplete s = .next t ∧
      t = { s with results := t.results, phase := .done, ok := t.ok, err := t.err, layer := t.layer,
                   engine := t.engine, draws := t.draws } ∧
      s.draws + s.frameLen.toNat < t.draws ∧
      (∀ k l, decodeFrame s.byteAt s.frameLen.toNat s.ts = .fail k l →
        t.results = Results.cleared ∧ t.ok = false ∧ t.err = some k ∧ t.layer = some l ∧
        t.statusWord.toNat = 2 + 16 * k.number + 256 * l.number) ∧
      (∀ p, decodeFrame s.byteAt s.frameLen.toNat s.ts = .ok p →
        t.ok = true ∧ t.err = none ∧ t.layer = none ∧ t.statusWord = 0x006#32 ∧ t.results.resTs = s.ts ∧
        t.results.dstMac = p.eth.dstMac ∧ t.results.srcMac = p.eth.srcMac ∧
        t.results.ipVer = p.ip.ver ∧ t.results.ipIhl = p.ip.ihl ∧ t.results.ipProto = p.ip.protocol ∧
        t.results.ipHlen = p.ip.hlen ∧ t.results.srcIp = p.ip.srcIp ∧ t.results.dstIp = p.ip.dstIp ∧
        t.results.l4Off.toNat = p.l4 ∧ t.results.payloadOff.toNat = p.poff ∧ t.results.payloadLen.toNat = p.plen ∧
        (∀ h, p.transport = .tcp h →
          t.results.l4Kind = .tcp ∧ t.results.srcPort = h.srcPort ∧ t.results.dstPort = h.dstPort ∧
          t.results.tcpSeq = h.seq ∧ t.results.tcpAck = h.ack ∧ t.results.tcpDoff = h.doff ∧
          t.results.l4Hlen = h.tlen ∧ t.results.unkProto = 0 ∧ t.results.udpLen = 0 ∧ t.results.udpCsum = 0) ∧
        (∀ h, p.transport = .udp h →
          t.results.l4Kind = .udp ∧ t.results.srcPort = h.srcPort ∧ t.results.dstPort = h.dstPort ∧
          t.results.udpLen = h.length ∧ t.results.udpCsum = h.checksum ∧ t.results.l4Hlen = 8 ∧
          t.results.unkProto = 0 ∧ t.results.tcpSeq = 0 ∧ t.results.tcpAck = 0 ∧ t.results.tcpDoff = 0) ∧
        (∀ q, p.transport = .unknown q →
          t.results.l4Kind = .unknown ∧ t.results.unkProto = q ∧ t.results.l4Hlen = 0 ∧ t.results.srcPort = 0 ∧
          t.results.dstPort = 0 ∧ t.results.tcpSeq = 0 ∧ t.results.tcpAck = 0 ∧ t.results.tcpDoff = 0 ∧
          t.results.udpLen = 0 ∧ t.results.udpCsum = 0)))

/-- R170, R174: from BUSY, the completion records exactly the failure the table gives, with every result field 0, and
succeeds when the table gives none. -/
def Obligations.FailureTableIsExact : Prop :=
  ∀ (s : State), s.phase = .busy →
    ∃ t, exec .engineComplete s = .next t ∧
      (∀ k l, FailsWith s.byteAt s.frameLen.toNat k l ↔ (t.ok = false ∧ t.err = some k ∧ t.layer = some l)) ∧
      (t.ok = true ↔ ∀ k l, ¬FailsWith s.byteAt s.frameLen.toNat k l) ∧
      (∀ k l, t.err = some k → t.layer = some l → t.statusWord.toNat = 2 + 16 * k.number + 256 * l.number) ∧
      (t.ok = false → t = { s with results := Results.cleared, phase := .done, ok := false, err := t.err,
                                   layer := t.layer, engine := t.engine, draws := t.draws })

/-- R26 with R70 and R71: a success publishes the frame's own bytes: timestamp, MACs, version, IHL, protocol, addresses,
and L4_OFF = 14 + 4 × IHL. -/
def Obligations.SuccessPublishesLinkAndNetworkBytes : Prop :=
  ∀ (s : State), s.phase = .busy → (∀ k l, ¬FailsWith s.byteAt s.frameLen.toNat k l) →
    ∃ t, exec .engineComplete s = .next t ∧ t.statusWord = 0x006#32 ∧ t.results.resTs = s.ts ∧
      HoldsBytes t.results.dstMac s.byteAt 0 6 ∧ HoldsBytes t.results.srcMac s.byteAt 6 6 ∧
      t.results.ipVer.toNat = (s.byteAt 14).toNat / 16 ∧ t.results.ipIhl.toNat = frameIhl s.byteAt ∧
      t.results.ipHlen.toNat = 4 * frameIhl s.byteAt ∧ t.results.ipProto = s.byteAt 23 ∧
      HoldsBytes t.results.srcIp s.byteAt 26 4 ∧ HoldsBytes t.results.dstIp s.byteAt 30 4 ∧
      t.results.l4Off.toNat = frameL4 s.byteAt

/-- R26, R27, R128 with R72 and R73: a success publishes the transport header's own bytes and where the payload lies, by
protocol. -/
def Obligations.SuccessPublishesTransportBytes : Prop :=
  ∀ (s : State), s.phase = .busy → (∀ k l, ¬FailsWith s.byteAt s.frameLen.toNat k l) →
    ∃ t, exec .engineComplete s = .next t ∧
      t.results.payloadOff.toNat = frameL4 s.byteAt + t.results.l4Hlen.toNat ∧
      t.results.payloadOff.toNat + t.results.payloadLen.toNat = s.frameLen.toNat ∧
      (s.byteAt 23 = 6#8 →
        t.results.l4Kind = .tcp ∧ HoldsBytes t.results.srcPort s.byteAt (frameL4 s.byteAt) 2 ∧
        HoldsBytes t.results.dstPort s.byteAt (frameL4 s.byteAt + 2) 2 ∧
        HoldsBytes t.results.tcpSeq s.byteAt (frameL4 s.byteAt + 4) 4 ∧
        HoldsBytes t.results.tcpAck s.byteAt (frameL4 s.byteAt + 8) 4 ∧
        t.results.tcpDoff.toNat = tcpDataOffset s.byteAt (frameL4 s.byteAt) ∧
        t.results.l4Hlen.toNat = 4 * tcpDataOffset s.byteAt (frameL4 s.byteAt)) ∧
      (s.byteAt 23 = 17#8 →
        t.results.l4Kind = .udp ∧ HoldsBytes t.results.srcPort s.byteAt (frameL4 s.byteAt) 2 ∧
        HoldsBytes t.results.dstPort s.byteAt (frameL4 s.byteAt + 2) 2 ∧
        HoldsBytes t.results.udpLen s.byteAt (frameL4 s.byteAt + 4) 2 ∧
        HoldsBytes t.results.udpCsum s.byteAt (frameL4 s.byteAt + 6) 2 ∧ t.results.l4Hlen.toNat = 8) ∧
      (s.byteAt 23 ≠ 6#8 → s.byteAt 23 ≠ 17#8 →
        t.results.l4Kind = .unknown ∧ t.results.unkProto = s.byteAt 23 ∧ t.results.l4Hlen.toNat = 0)

/-- R131: the result of a decode depends on nothing but FB[0, n), n and TS: two BUSY blocks that agree on these, with
every byte of the frame written, complete with the same STATUS and the same results. -/
def Obligations.ResultDependsOnlyOnFrameAndTimestamp : Prop :=
  ∀ (s u : State), s.phase = .busy → u.phase = .busy → s.frameLen = u.frameLen → s.ts = u.ts →
    (∀ i, i < s.frameLen.toNat → ∃ v, Memory.read s.fb i = some v ∧ Memory.read u.fb i = some v) →
    ∃ s' u', exec .engineComplete s = .next s' ∧ exec .engineComplete u = .next u' ∧
      s'.results = u'.results ∧ s'.statusWord = u'.statusWord

/-- R130, R67: the four views of a successful decode tile the frame: each begins where the one before it ends, and their
bytes, in order, are FB[0, n). The transport region is the transport header and the payload, up to the end of the frame (LEN as the
completion leaves it; log 21 for a later write of it). -/
def Obligations.ViewsTileTheFrame : Prop :=
  ∀ (s t : State), s.phase = .busy → exec .engineComplete s = .next t → t.ok = true →
    t.results.l4Off.toNat = 14 + t.results.ipHlen.toNat ∧
    t.results.payloadOff.toNat = t.results.l4Off.toNat + t.results.l4Hlen.toNat ∧
    t.results.payloadOff.toNat + t.results.payloadLen.toNat = s.frameLen.toNat ∧
    (t.results.l4Kind = .unknown → t.results.l4Hlen = 0) ∧
    t.viewBytes ethView ++ t.viewBytes t.results.ipView ++ t.viewBytes t.results.transportView ++
      t.viewBytes t.results.payloadView = s.bytesFrom 0 s.frameLen.toNat ∧
    t.transportRegionView.offset = t.results.l4Off.toNat ∧
    t.transportRegionView.offset + t.transportRegionView.length = s.frameLen.toNat ∧
    t.viewBytes t.transportRegionView = t.viewBytes t.results.transportView ++ t.viewBytes t.results.payloadView

/-! ### The engine rows by themselves (the model's own named values, log 5; what a row does where the rows before it were
not taken, where LEN < 14 or LEN < l4, and where LEN > MAX_FRAME is log 19 and log 20; DEC_ETH and DECODE after a recorded
failure are log 22) -/

/-- DECODE evaluated by itself returns Ok or Err; DISPATCH_UNKNOWN evaluated by itself is a normal outcome for every
protocol byte (for 6 and 17 the model's choice, log 17), the payload the whole region (log 20 where LEN < l4). Neither
changes a register, the memory or an output, and no later read meets a draw of theirs. -/
def Obligations.DecodeAndUnknownRowsReturn : Prop :=
  ∀ (s : State),
    (∃ t, exec .decode s = .next t ∧
      t = { s with engine := { s.engine with returned := t.engine.returned }, draws := t.draws } ∧
      s.draws + s.frameLen.toNat < t.draws ∧
      t.engine.returned = some (decodeFrame s.byteAt s.frameLen.toNat s.ts)) ∧
    ∀ q : Byte, ∃ t, exec (.dispatchUnknown q) s = .next t ∧
      t = { s with engine := t.engine, draws := t.draws } ∧ s.draws + s.frameLen.toNat < t.draws ∧
      (s.engine.failure ≠ none → t.engine = s.engine) ∧
      (s.engine.failure = none →
        t.engine = { s.engine with transport := some (.unknown q), poff := s.engine.l4,
                                   plen := s.frameLen.toNat - s.engine.l4 })

/-- DEC_ETH and DEC_IPV4 evaluated by themselves: the header read from the frame, or the failure; no register, no memory
and no output changes. DEC_IPV4 keeps what DEC_ETH left. -/
def Obligations.EthernetAndIpv4RowsReadTheFrame : Prop :=
  ∀ (s : State),
    (∃ t, exec .decEth s = .next t ∧ t = { s with engine := t.engine, draws := t.draws } ∧
      s.draws + s.frameLen.toNat < t.draws ∧
      (s.frameLen.toNat < 14 → t.engine = EngineVars.failed .truncatedFrame .eth) ∧
      (14 ≤ s.frameLen.toNat →
        ∃ h, decEth s.byteAt s.frameLen.toNat = .ok h ∧ t.engine = { EngineVars.cleared with eth := some h } ∧
          HoldsBytes h.dstMac s.byteAt 0 6 ∧ HoldsBytes h.srcMac s.byteAt 6 6)) ∧
    (∃ t, exec .decIpv4 s = .next t ∧ t = { s with engine := t.engine, draws := t.draws } ∧
      s.draws + s.frameLen.toNat < t.draws ∧
      (s.engine.failure ≠ none → t.engine = s.engine) ∧
      (s.engine.failure = none → s.frameLen.toNat - 14 < 20 →
        t.engine = EngineVars.failed .truncatedFrame .ipv4) ∧
      (s.engine.failure = none → 20 ≤ s.frameLen.toNat - 14 →
        (frameIhl s.byteAt < 5 ∨ s.frameLen.toNat - 14 < 4 * frameIhl s.byteAt) →
        t.engine = EngineVars.failed .invalidHeaderLength .ipv4) ∧
      (s.engine.failure = none → 20 ≤ s.frameLen.toNat - 14 → 5 ≤ frameIhl s.byteAt →
        4 * frameIhl s.byteAt ≤ s.frameLen.toNat - 14 →
        ∃ h, decIpv4 s.byteAt (s.frameLen.toNat - 14) = .ok h ∧
          t.engine = { s.engine with ip := some h, l4 := 14 + h.hlen.toNat } ∧
          h.ver.toNat = (s.byteAt 14).toNat / 16 ∧ h.ihl.toNat = frameIhl s.byteAt ∧
          h.hlen.toNat = 4 * frameIhl s.byteAt ∧ h.protocol = s.byteAt 23 ∧ HoldsBytes h.srcIp s.byteAt 26 4 ∧
          HoldsBytes h.dstIp s.byteAt 30 4))

/-- DEC_TCP and DISPATCH_TCP evaluated by themselves, from the engine's l4, whatever protocol is recorded (log 20). -/
def Obligations.TcpRowsReadTheTransportRegion : Prop :=
  ∀ (s : State),
    (∃ t, exec .decTcp s = .next t ∧ t = { s with engine := t.engine, draws := t.draws } ∧
      s.draws + s.frameLen.toNat < t.draws ∧
      (s.engine.failure ≠ none → t.engine = s.engine) ∧
      (s.engine.failure = none → ∀ k l, decTcp s.byteAt s.engine.l4 (s.frameLen.toNat - s.engine.l4) = .fail k l →
        t.engine = EngineVars.failed k l) ∧
      (s.engine.failure = none → ∀ h, decTcp s.byteAt s.engine.l4 (s.frameLen.toNat - s.engine.l4) = .ok h →
        t.engine = { s.engine with transport := some (.tcp h) })) ∧
    (∃ t, exec .dispatchTcp s = .next t ∧ t = { s with engine := t.engine, draws := t.draws } ∧
      s.draws + s.frameLen.toNat < t.draws ∧
      (s.engine.failure ≠ none → t.engine = s.engine) ∧
      (s.engine.failure = none → ∀ k l, decTcp s.byteAt s.engine.l4 (s.frameLen.toNat - s.engine.l4) = .fail k l →
        t.engine = EngineVars.failed k l) ∧
      (s.engine.failure = none → ∀ h, decTcp s.byteAt s.engine.l4 (s.frameLen.toNat - s.engine.l4) = .ok h →
        t.engine = { s.engine with transport := some (.tcp h), poff := s.engine.l4 + h.tlen.toNat,
                                   plen := s.frameLen.toNat - (s.engine.l4 + h.tlen.toNat) }))

/-- DEC_UDP and DISPATCH_UDP evaluated by themselves, from the engine's l4, whatever protocol is recorded (log 20). -/
def Obligations.UdpRowsReadTheTransportRegion : Prop :=
  ∀ (s : State),
    (∃ t, exec .decUdp s = .next t ∧ t = { s with engine := t.engine, draws := t.draws } ∧
      s.draws + s.frameLen.toNat < t.draws ∧
      (s.engine.failure ≠ none → t.engine = s.engine) ∧
      (s.engine.failure = none → ∀ k l, decUdp s.byteAt s.engine.l4 (s.frameLen.toNat - s.engine.l4) = .fail k l →
        t.engine = EngineVars.failed k l) ∧
      (s.engine.failure = none → ∀ h, decUdp s.byteAt s.engine.l4 (s.frameLen.toNat - s.engine.l4) = .ok h →
        t.engine = { s.engine with transport := some (.udp h) })) ∧
    (∃ t, exec .dispatchUdp s = .next t ∧ t = { s with engine := t.engine, draws := t.draws } ∧
      s.draws + s.frameLen.toNat < t.draws ∧
      (s.engine.failure ≠ none → t.engine = s.engine) ∧
      (s.engine.failure = none → ∀ k l, decUdp s.byteAt s.engine.l4 (s.frameLen.toNat - s.engine.l4) = .fail k l →
        t.engine = EngineVars.failed k l) ∧
      (s.engine.failure = none → ∀ h, decUdp s.byteAt s.engine.l4 (s.frameLen.toNat - s.engine.l4) = .ok h →
        t.engine = { s.engine with transport := some (.udp h), poff := s.engine.l4 + 8,
                                   plen := s.frameLen.toNat - (s.engine.l4 + 8) }))

/-- The rows evaluated one by one in DECODE's order (DEC_ETH, DEC_IPV4, the dispatch the protocol byte selects) leave in
the engine's named values what DECODE returns, when every byte of the frame is written. -/
def Obligations.RowsInOrderEqualDecode : Prop :=
  ∀ (s : State), (∀ i, i < s.frameLen.toNat → ∃ v, Memory.read s.fb i = some v) →
    ∃ s1 s2 u, exec .decEth s = .next s1 ∧ exec .decIpv4 s1 = .next s2 ∧ exec .decode s = .next u ∧
      ∀ q : Byte, (∀ h, s2.engine.ip = some h → q = h.protocol) →
        ∃ s3, exec (decodeProto8 q) s2 = .next s3 ∧ s3.engine.packet s.ts = u.engine.returned

/-- The engine's named values and rdata steer nothing (log 5, log 6). With other named values the same step gives the same
next state but for the named values: rdata, an output (R8, R78), included. With another rdata it gives the same next state,
or keeps the rdata it was given where the step returns none. -/
def Obligations.EngineVarsSteerNothing : Prop :=
  ∀ (s t : State), step s = .next t →
    (∀ e : EngineVars, ∃ e', step { s with engine := e } = .next { t with engine := e' }) ∧
    ∀ w : Word, step { s with rdata := w } = .next t ∨
      (t.rdata = s.rdata ∧ step { s with rdata := w } = .next { t with rdata := w })

/-! ### Invariant -/

/-- The invariant holds right after reset. -/
def Obligations.ResetSatisfiesInvariant : Prop := Inv State.reset

/-- R27, R28, R31, R133: every step keeps the invariant: the canonical frame buffer, a legal STATUS, results 0 unless
DONE and OK, and a published result that is a tagged union whose offsets fit the buffer. -/
def Obligations.StepKeepsInvariant : Prop :=
  ∀ (s t : State), Inv s → step s = .next t → Inv t

/-- R31: each of the listed STATUS values is reached from reset. -/
def Obligations.EveryStatusValueIsReached : Prop :=
  ∀ v, v ∈ statusValues → ∃ (events : List Event) (t : State),
    State.reset.runEvents events = .next t ∧ t.statusWord = v

/-! ### The decode entry point and the platform -/

/-- R161, R83, R203: `decode(frame, captured_at)` from any block that is not BUSY, wherever the engine takes its completion
between the polls: it ends with the outcome DECODE gives for the frame's own bytes, in STATUS and the result registers, and
the frame in FB. A hardware reset during the wait ends it with the registers 0. WAITDONE by itself, in a block that is not
BUSY, is one read of STATUS. -/
def Obligations.DecodeEntryPoint : Prop :=
  ∀ (s : State), s.phase ≠ .busy →
    (∀ (frame : List Byte) (ts : BitVec 64), frame.length ≤ s.params.maxFrame →
      (∀ between : List (List Event), (∀ events ∈ between, events = [] ∨ events = [engineEvent]) →
        ∃ t, decodeCall frame ts between s = .next t ∧ t.runEnded ∧ t.rdata = t.statusWord ∧
          (∀ i, i < frame.length → Memory.read t.fb i = frame[i]?) ∧
          (∀ p, decodeFrame (fun i => frame.getD i 0) frame.length ts = .ok p →
            t.statusWord = 0x006#32 ∧ t.results = p.results) ∧
          (∀ k l, decodeFrame (fun i => frame.getD i 0) frame.length ts = .fail k l →
            t.ok = false ∧ t.err = some k ∧ t.layer = some l ∧ t.results = Results.cleared ∧
            (k = .invalidHeaderLength → l = .ipv4 ∨ l = .tcp))) ∧
      ∀ (polls : Nat) (later : List (List Event)),
        ∃ t, decodeCall frame ts (List.replicate polls [] ++ [.hardwareReset] :: later) s = .next t ∧ t.runEnded ∧
          RegistersZero t ∧ t.rdata = 0#32) ∧
    ∀ later : List (List Event),
      waitDone [] s = .next { s with rdata := s.statusWord, inputs := [] } ∧
      waitDone ([] :: later) s = .next { s with rdata := s.statusWord, inputs := [] }

/-- R182: an event of one instance never affects another, and two instances' events commute. -/
def Obligations.InstancesShareNothing : Prop :=
  ∀ (p q : Platform) (i j : Nat), p.stepAt i = .next q → i ≠ j →
    q.instances[j]? = p.instances[j]? ∧ q.instances.length = p.instances.length ∧
    ∀ r, q.stepAt j = .next r → ∃ q', p.stepAt j = .next q' ∧ q'.stepAt i = .next r
end

