-- ==== Sys2Proof/Laws/State.lean ====
section
/-! SUPPORT. One lemma per field per update of State, true by rfl, so that no proof unfolds a record update. -/

namespace Sys2Proof.Machine.State

variable (s : State)

@[simp] theorem returns_params (v : Word) : (s.returns v).params = s.params := rfl
@[simp] theorem returns_irqEn (v : Word) : (s.returns v).irqEn = s.irqEn := rfl
@[simp] theorem returns_phase (v : Word) : (s.returns v).phase = s.phase := rfl
@[simp] theorem returns_ok (v : Word) : (s.returns v).ok = s.ok := rfl
@[simp] theorem returns_err (v : Word) : (s.returns v).err = s.err := rfl
@[simp] theorem returns_layer (v : Word) : (s.returns v).layer = s.layer := rfl
@[simp] theorem returns_frameLen (v : Word) : (s.returns v).frameLen = s.frameLen := rfl
@[simp] theorem returns_ts (v : Word) : (s.returns v).ts = s.ts := rfl
@[simp] theorem returns_results (v : Word) : (s.returns v).results = s.results := rfl
@[simp] theorem returns_fb (v : Word) : (s.returns v).fb = s.fb := rfl
@[simp] theorem returns_rdata (v : Word) : (s.returns v).rdata = v := rfl
@[simp] theorem returns_engine (v : Word) : (s.returns v).engine = s.engine := rfl
@[simp] theorem returns_draws (v : Word) : (s.returns v).draws = s.draws := rfl
@[simp] theorem returns_inputs (v : Word) : (s.returns v).inputs = s.inputs := rfl

@[simp] theorem useDraws_params (n : Nat) : (s.useDraws n).params = s.params := rfl
@[simp] theorem useDraws_irqEn (n : Nat) : (s.useDraws n).irqEn = s.irqEn := rfl
@[simp] theorem useDraws_phase (n : Nat) : (s.useDraws n).phase = s.phase := rfl
@[simp] theorem useDraws_ok (n : Nat) : (s.useDraws n).ok = s.ok := rfl
@[simp] theorem useDraws_err (n : Nat) : (s.useDraws n).err = s.err := rfl
@[simp] theorem useDraws_layer (n : Nat) : (s.useDraws n).layer = s.layer := rfl
@[simp] theorem useDraws_frameLen (n : Nat) : (s.useDraws n).frameLen = s.frameLen := rfl
@[simp] theorem useDraws_ts (n : Nat) : (s.useDraws n).ts = s.ts := rfl
@[simp] theorem useDraws_results (n : Nat) : (s.useDraws n).results = s.results := rfl
@[simp] theorem useDraws_fb (n : Nat) : (s.useDraws n).fb = s.fb := rfl
@[simp] theorem useDraws_rdata (n : Nat) : (s.useDraws n).rdata = s.rdata := rfl
@[simp] theorem useDraws_engine (n : Nat) : (s.useDraws n).engine = s.engine := rfl
@[simp] theorem useDraws_draws (n : Nat) : (s.useDraws n).draws = s.draws + n := rfl
@[simp] theorem useDraws_inputs (n : Nat) : (s.useDraws n).inputs = s.inputs := rfl

@[simp] theorem evaluate_params (f : (Nat → Byte) → Nat → EngineVars → EngineVars) : (s.evaluate f).params = s.params := rfl
@[simp] theorem evaluate_irqEn (f : (Nat → Byte) → Nat → EngineVars → EngineVars) : (s.evaluate f).irqEn = s.irqEn := rfl
@[simp] theorem evaluate_phase (f : (Nat → Byte) → Nat → EngineVars → EngineVars) : (s.evaluate f).phase = s.phase := rfl
@[simp] theorem evaluate_ok (f : (Nat → Byte) → Nat → EngineVars → EngineVars) : (s.evaluate f).ok = s.ok := rfl
@[simp] theorem evaluate_err (f : (Nat → Byte) → Nat → EngineVars → EngineVars) : (s.evaluate f).err = s.err := rfl
@[simp] theorem evaluate_layer (f : (Nat → Byte) → Nat → EngineVars → EngineVars) : (s.evaluate f).layer = s.layer := rfl
@[simp] theorem evaluate_frameLen (f : (Nat → Byte) → Nat → EngineVars → EngineVars) : (s.evaluate f).frameLen = s.frameLen := rfl
@[simp] theorem evaluate_ts (f : (Nat → Byte) → Nat → EngineVars → EngineVars) : (s.evaluate f).ts = s.ts := rfl
@[simp] theorem evaluate_results (f : (Nat → Byte) → Nat → EngineVars → EngineVars) : (s.evaluate f).results = s.results := rfl
@[simp] theorem evaluate_fb (f : (Nat → Byte) → Nat → EngineVars → EngineVars) : (s.evaluate f).fb = s.fb := rfl
@[simp] theorem evaluate_rdata (f : (Nat → Byte) → Nat → EngineVars → EngineVars) : (s.evaluate f).rdata = s.rdata := rfl
@[simp] theorem evaluate_engine (f : (Nat → Byte) → Nat → EngineVars → EngineVars) : (s.evaluate f).engine = f s.byteAt s.frameLen.toNat s.engine := rfl
@[simp] theorem evaluate_draws (f : (Nat → Byte) → Nat → EngineVars → EngineVars) : (s.evaluate f).draws = s.draws + Config.engineDraws := rfl
@[simp] theorem evaluate_inputs (f : (Nat → Byte) → Nat → EngineVars → EngineVars) : (s.evaluate f).inputs = s.inputs := rfl

@[simp] theorem engineIdle_params : (s.engineIdle).params = s.params := rfl
@[simp] theorem engineIdle_irqEn : (s.engineIdle).irqEn = s.irqEn := rfl
@[simp] theorem engineIdle_phase : (s.engineIdle).phase = s.phase := rfl
@[simp] theorem engineIdle_ok : (s.engineIdle).ok = s.ok := rfl
@[simp] theorem engineIdle_err : (s.engineIdle).err = s.err := rfl
@[simp] theorem engineIdle_layer : (s.engineIdle).layer = s.layer := rfl
@[simp] theorem engineIdle_frameLen : (s.engineIdle).frameLen = s.frameLen := rfl
@[simp] theorem engineIdle_ts : (s.engineIdle).ts = s.ts := rfl
@[simp] theorem engineIdle_results : (s.engineIdle).results = s.results := rfl
@[simp] theorem engineIdle_fb : (s.engineIdle).fb = s.fb := rfl
@[simp] theorem engineIdle_rdata : (s.engineIdle).rdata = s.rdata := rfl
@[simp] theorem engineIdle_engine : (s.engineIdle).engine = EngineVars.cleared := rfl
@[simp] theorem engineIdle_draws : (s.engineIdle).draws = s.draws + Config.engineDraws := rfl
@[simp] theorem engineIdle_inputs : (s.engineIdle).inputs = s.inputs := rfl

@[simp] theorem publish_params (r : Results) : (s.publish r).params = s.params := rfl
@[simp] theorem publish_irqEn (r : Results) : (s.publish r).irqEn = s.irqEn := rfl
@[simp] theorem publish_phase (r : Results) : (s.publish r).phase = .done := rfl
@[simp] theorem publish_ok (r : Results) : (s.publish r).ok = true := rfl
@[simp] theorem publish_err (r : Results) : (s.publish r).err = none := rfl
@[simp] theorem publish_layer (r : Results) : (s.publish r).layer = none := rfl
@[simp] theorem publish_frameLen (r : Results) : (s.publish r).frameLen = s.frameLen := rfl
@[simp] theorem publish_ts (r : Results) : (s.publish r).ts = s.ts := rfl
@[simp] theorem publish_results (r : Results) : (s.publish r).results = r := rfl
@[simp] theorem publish_fb (r : Results) : (s.publish r).fb = s.fb := rfl
@[simp] theorem publish_rdata (r : Results) : (s.publish r).rdata = s.rdata := rfl
@[simp] theorem publish_engine (r : Results) : (s.publish r).engine = s.engine := rfl
@[simp] theorem publish_draws (r : Results) : (s.publish r).draws = s.draws := rfl
@[simp] theorem publish_inputs (r : Results) : (s.publish r).inputs = s.inputs := rfl

@[simp] theorem takeFailure_params (k : ErrKind) (l : Layer) : (s.takeFailure k l).params = s.params := rfl
@[simp] theorem takeFailure_irqEn (k : ErrKind) (l : Layer) : (s.takeFailure k l).irqEn = s.irqEn := rfl
@[simp] theorem takeFailure_phase (k : ErrKind) (l : Layer) : (s.takeFailure k l).phase = .done := rfl
@[simp] theorem takeFailure_ok (k : ErrKind) (l : Layer) : (s.takeFailure k l).ok = false := rfl
@[simp] theorem takeFailure_err (k : ErrKind) (l : Layer) : (s.takeFailure k l).err = some k := rfl
@[simp] theorem takeFailure_layer (k : ErrKind) (l : Layer) : (s.takeFailure k l).layer = some l := rfl
@[simp] theorem takeFailure_frameLen (k : ErrKind) (l : Layer) : (s.takeFailure k l).frameLen = s.frameLen := rfl
@[simp] theorem takeFailure_ts (k : ErrKind) (l : Layer) : (s.takeFailure k l).ts = s.ts := rfl
@[simp] theorem takeFailure_results (k : ErrKind) (l : Layer) : (s.takeFailure k l).results = Results.cleared := rfl
@[simp] theorem takeFailure_fb (k : ErrKind) (l : Layer) : (s.takeFailure k l).fb = s.fb := rfl
@[simp] theorem takeFailure_rdata (k : ErrKind) (l : Layer) : (s.takeFailure k l).rdata = s.rdata := rfl
@[simp] theorem takeFailure_engine (k : ErrKind) (l : Layer) : (s.takeFailure k l).engine = s.engine := rfl
@[simp] theorem takeFailure_draws (k : ErrKind) (l : Layer) : (s.takeFailure k l).draws = s.draws := rfl
@[simp] theorem takeFailure_inputs (k : ErrKind) (l : Layer) : (s.takeFailure k l).inputs = s.inputs := rfl

@[simp] theorem startDecode_params (e : Bool) : (s.startDecode e).params = s.params := rfl
@[simp] theorem startDecode_irqEn (e : Bool) : (s.startDecode e).irqEn = e := rfl
@[simp] theorem startDecode_phase (e : Bool) : (s.startDecode e).phase = .busy := rfl
@[simp] theorem startDecode_ok (e : Bool) : (s.startDecode e).ok = false := rfl
@[simp] theorem startDecode_err (e : Bool) : (s.startDecode e).err = none := rfl
@[simp] theorem startDecode_layer (e : Bool) : (s.startDecode e).layer = none := rfl
@[simp] theorem startDecode_frameLen (e : Bool) : (s.startDecode e).frameLen = s.frameLen := rfl
@[simp] theorem startDecode_ts (e : Bool) : (s.startDecode e).ts = s.ts := rfl
@[simp] theorem startDecode_results (e : Bool) : (s.startDecode e).results = Results.cleared := rfl
@[simp] theorem startDecode_fb (e : Bool) : (s.startDecode e).fb = s.fb := rfl
@[simp] theorem startDecode_rdata (e : Bool) : (s.startDecode e).rdata = s.rdata := rfl
@[simp] theorem startDecode_engine (e : Bool) : (s.startDecode e).engine = EngineVars.cleared := rfl
@[simp] theorem startDecode_draws (e : Bool) : (s.startDecode e).draws = s.draws := rfl
@[simp] theorem startDecode_inputs (e : Bool) : (s.startDecode e).inputs = s.inputs := rfl

@[simp] theorem softReset_params : (s.softReset).params = s.params := rfl
@[simp] theorem softReset_irqEn : (s.softReset).irqEn = false := rfl
@[simp] theorem softReset_phase : (s.softReset).phase = .idle := rfl
@[simp] theorem softReset_ok : (s.softReset).ok = false := rfl
@[simp] theorem softReset_err : (s.softReset).err = none := rfl
@[simp] theorem softReset_layer : (s.softReset).layer = none := rfl
@[simp] theorem softReset_frameLen : (s.softReset).frameLen = 0 := rfl
@[simp] theorem softReset_ts : (s.softReset).ts = 0 := rfl
@[simp] theorem softReset_results : (s.softReset).results = Results.cleared := rfl
@[simp] theorem softReset_fb : (s.softReset).fb = s.fb := rfl
@[simp] theorem softReset_rdata : (s.softReset).rdata = s.rdata := rfl
@[simp] theorem softReset_engine : (s.softReset).engine = EngineVars.cleared := rfl
@[simp] theorem softReset_draws : (s.softReset).draws = s.draws := rfl
@[simp] theorem softReset_inputs : (s.softReset).inputs = s.inputs := rfl

@[simp] theorem hardReset_params : (s.hardReset).params = s.params := rfl
@[simp] theorem hardReset_irqEn : (s.hardReset).irqEn = false := rfl
@[simp] theorem hardReset_phase : (s.hardReset).phase = .idle := rfl
@[simp] theorem hardReset_ok : (s.hardReset).ok = false := rfl
@[simp] theorem hardReset_err : (s.hardReset).err = none := rfl
@[simp] theorem hardReset_layer : (s.hardReset).layer = none := rfl
@[simp] theorem hardReset_frameLen : (s.hardReset).frameLen = 0 := rfl
@[simp] theorem hardReset_ts : (s.hardReset).ts = 0 := rfl
@[simp] theorem hardReset_results : (s.hardReset).results = Results.cleared := rfl
@[simp] theorem hardReset_fb : (s.hardReset).fb = [] := rfl
@[simp] theorem hardReset_rdata : (s.hardReset).rdata = s.rdata := rfl
@[simp] theorem hardReset_engine : (s.hardReset).engine = EngineVars.cleared := rfl
@[simp] theorem hardReset_draws : (s.hardReset).draws = s.draws := rfl
@[simp] theorem hardReset_inputs : (s.hardReset).inputs = s.inputs := rfl

@[simp] theorem withEvent_params (e : Event) : (s.withEvent e).params = s.params := rfl
@[simp] theorem withEvent_irqEn (e : Event) : (s.withEvent e).irqEn = s.irqEn := rfl
@[simp] theorem withEvent_phase (e : Event) : (s.withEvent e).phase = s.phase := rfl
@[simp] theorem withEvent_ok (e : Event) : (s.withEvent e).ok = s.ok := rfl
@[simp] theorem withEvent_err (e : Event) : (s.withEvent e).err = s.err := rfl
@[simp] theorem withEvent_layer (e : Event) : (s.withEvent e).layer = s.layer := rfl
@[simp] theorem withEvent_frameLen (e : Event) : (s.withEvent e).frameLen = s.frameLen := rfl
@[simp] theorem withEvent_ts (e : Event) : (s.withEvent e).ts = s.ts := rfl
@[simp] theorem withEvent_results (e : Event) : (s.withEvent e).results = s.results := rfl
@[simp] theorem withEvent_fb (e : Event) : (s.withEvent e).fb = s.fb := rfl
@[simp] theorem withEvent_rdata (e : Event) : (s.withEvent e).rdata = s.rdata := rfl
@[simp] theorem withEvent_engine (e : Event) : (s.withEvent e).engine = s.engine := rfl
@[simp] theorem withEvent_draws (e : Event) : (s.withEvent e).draws = s.draws := rfl
@[simp] theorem withEvent_inputs (e : Event) : (s.withEvent e).inputs = e :: s.inputs := rfl

/-! ### The input hazard (R199) -/

theorem unlessBusy_busy (w : State → State) (h : s.phase = .busy) : s.unlessBusy w = s := by simp [unlessBusy, h]

theorem unlessBusy_ready (w : State → State) (h : s.phase ≠ .busy) : s.unlessBusy w = w s := by
  cases hp : s.phase with
  | busy => exact absurd hp h
  | idle => simp [unlessBusy, hp]
  | done => simp [unlessBusy, hp]

/-! ### The draws of one engine evaluation (R23; log 7) -/

/-- An engine row uses an index for every offset of the frame: a later read meets none of them. -/
theorem evaluate_draws_past (f : (Nat → Byte) → Nat → EngineVars → EngineVars) :
    s.draws + s.frameLen.toNat < (s.evaluate f).draws := by
  have := s.frameLen.isLt
  simp only [evaluate, Config.engineDraws]
  omega

/-- The same of ENGINE_COMPLETE. -/
theorem engineIdle_draws_past : s.draws + s.frameLen.toNat < s.engineIdle.draws := by
  have := s.frameLen.isLt
  simp only [engineIdle, Config.engineDraws]
  omega

end Sys2Proof.Machine.State
end

