-- ==== Sys2Proof/Laws/Memory.lean ====
section
/-! SUPPORT. The laws of the frame buffer: a read after a write, every other byte alone, the canonical form kept; and what
the store operations of a state can do. -/

namespace Sys2Proof.Machine

namespace Memory

@[simp] theorem read_nil (a : Nat) : read [] a = none := rfl

theorem read_write_same (m : Memory) (a : Nat) (v : Byte) : read (write m a v) a = some v := by
  induction m with
  | nil => simp [write, read]
  | cons c m ih =>
    obtain ⟨k, b⟩ := c
    simp only [write]
    split_ifs with h1 h2
    · simp [read]
    · simp [read]
    · have : k ≠ a := fun h => h2 h.symm
      simp [read, this, ih]

theorem read_write_other (m : Memory) {a x : Nat} (v : Byte) (h : x ≠ a) : read (write m a v) x = read m x := by
  induction m with
  | nil => simp [write, read, Ne.symm h]
  | cons c m ih =>
    obtain ⟨k, b⟩ := c
    simp only [write]
    split_ifs with h1 h2
    · simp [read, Ne.symm h]
    · subst h2; simp [read, Ne.symm h]
    · by_cases hk : k = x <;> simp [read, hk, ih]

theorem mem_write {m : Memory} {a : Nat} {v : Byte} {c : Host.Cell} (h : c ∈ write m a v) : c = (a, v) ∨ c ∈ m := by
  induction m with
  | nil => simpa [write] using h
  | cons d m ih =>
    obtain ⟨k, b⟩ := d
    simp only [write] at h
    split_ifs at h with h1 h2
    · simpa using h
    · simp only [List.mem_cons] at h ⊢; tauto
    · simp only [List.mem_cons] at h ⊢
      rcases h with h | h
      · exact .inr (.inl h)
      · rcases ih h with h | h
        · exact .inl h
        · exact .inr (.inr h)

/-- A write keeps the canonical form. -/
theorem wf_write {m : Memory} (a : Nat) (v : Byte) (h : wf m) : wf (write m a v) := by
  induction m with
  | nil => simp [write, wf]
  | cons d m ih =>
    obtain ⟨k, b⟩ := d
    obtain ⟨hd, hm⟩ := List.pairwise_cons.1 h
    simp only [write]
    split_ifs with h1 h2
    · refine List.pairwise_cons.2 ⟨fun c hc => ?_, h⟩
      rcases List.mem_cons.1 hc with rfl | hc
      · exact h1
      · exact Nat.lt_trans h1 (hd c hc)
    · subst h2; exact List.pairwise_cons.2 ⟨hd, hm⟩
    · refine List.pairwise_cons.2 ⟨fun c hc => ?_, ih hm⟩
      rcases mem_write hc with rfl | hc
      · simp only; omega
      · exact hd c hc

theorem within_write {m : Memory} {limit a : Nat} (v : Byte) (ha : a < limit) (h : within limit m) :
    within limit (write m a v) := by
  intro c hc
  rcases mem_write hc with rfl | hc
  · exact ha
  · exact h c hc

end Memory

namespace State

variable (s : State)

/-- All a store of one byte can do. -/
theorem storeByte_cases (a : Nat) (v : Byte) :
    (a < s.params.maxFrame ∧ s.storeByte a v = { s with fb := Memory.write s.fb a v }) ∨
    (¬ a < s.params.maxFrame ∧ s.storeByte a v = s) := by
  by_cases h : a < s.params.maxFrame <;> simp [storeByte, h]

theorem storeByte_eq (a : Nat) (v : Byte) : s.storeByte a v = { s with fb := (s.storeByte a v).fb } := by
  rcases s.storeByte_cases a v with ⟨-, h⟩ | ⟨-, h⟩ <;> rw [h]

theorem storeWord_eq (w : Nat) (v : Word) : s.storeWord w v = { s with fb := (s.storeWord w v).fb } := by
  unfold storeWord
  rw [storeByte_eq (((s.storeByte w (lane v 0)).storeByte (w + 1) (lane v 1)).storeByte (w + 2) (lane v 2)),
    storeByte_eq ((s.storeByte w (lane v 0)).storeByte (w + 1) (lane v 1)), storeByte_eq (s.storeByte w (lane v 0)),
    storeByte_eq s]

theorem storeByte_params (a : Nat) (v : Byte) : (s.storeByte a v).params = s.params := by rw [storeByte_eq]

theorem read_storeByte_same {a : Nat} (v : Byte) (h : a < s.params.maxFrame) :
    Memory.read (s.storeByte a v).fb a = some v := by
  simp [storeByte, h, Memory.read_write_same]

theorem read_storeByte_other {a x : Nat} (v : Byte) (h : x ≠ a) :
    Memory.read (s.storeByte a v).fb x = Memory.read s.fb x := by
  rcases s.storeByte_cases a v with ⟨-, e⟩ | ⟨-, e⟩ <;> rw [e]
  exact Memory.read_write_other s.fb v h

theorem wf_storeByte (a : Nat) (v : Byte) (h : Memory.wf s.fb) : Memory.wf (s.storeByte a v).fb := by
  rcases s.storeByte_cases a v with ⟨-, e⟩ | ⟨-, e⟩ <;> rw [e]
  · exact Memory.wf_write a v h
  · exact h

theorem within_storeByte (a : Nat) (v : Byte) (h : Memory.within s.params.maxFrame s.fb) :
    Memory.within s.params.maxFrame (s.storeByte a v).fb := by
  rcases s.storeByte_cases a v with ⟨ha, e⟩ | ⟨-, e⟩ <;> rw [e]
  · exact Memory.within_write v ha h
  · exact h

theorem wf_storeWord (w : Nat) (v : Word) (h : Memory.wf s.fb) : Memory.wf (s.storeWord w v).fb :=
  wf_storeByte _ _ _ (wf_storeByte _ _ _ (wf_storeByte _ _ _ (wf_storeByte _ _ _ h)))

theorem within_storeWord (w : Nat) (v : Word) (h : Memory.within s.params.maxFrame s.fb) :
    Memory.within s.params.maxFrame (s.storeWord w v).fb := by
  have h1 := s.within_storeByte w (lane v 0) h
  have h2 := (s.storeByte w (lane v 0)).within_storeByte (w + 1) (lane v 1) (by rwa [storeByte_params])
  have h3 := ((s.storeByte w (lane v 0)).storeByte (w + 1) (lane v 1)).within_storeByte (w + 2) (lane v 2)
    (by rwa [storeByte_params])
  have h4 := (((s.storeByte w (lane v 0)).storeByte (w + 1) (lane v 1)).storeByte (w + 2)
    (lane v 2)).within_storeByte (w + 3) (lane v 3) (by rwa [storeByte_params])
  simpa only [storeByte_params, storeWord] using h4

/-- The byte a store of a word leaves at any address. -/
theorem read_storeWord {w : Nat} (v : Word) (h : w + 3 < s.params.maxFrame) (x : Nat) :
    Memory.read (s.storeWord w v).fb x =
      if x = w then some (lane v 0) else if x = w + 1 then some (lane v 1)
      else if x = w + 2 then some (lane v 2) else if x = w + 3 then some (lane v 3) else Memory.read s.fb x := by
  unfold storeWord
  by_cases h3 : x = w + 3
  · subst h3
    rw [read_storeByte_same _ _ (by simp only [storeByte_params]; omega)]; simp
  rw [read_storeByte_other _ _ h3]
  by_cases h2 : x = w + 2
  · subst h2
    rw [read_storeByte_same _ _ (by simp only [storeByte_params]; omega)]; simp
  rw [read_storeByte_other _ _ h2]
  by_cases h1 : x = w + 1
  · subst h1
    rw [read_storeByte_same _ _ (by simp only [storeByte_params]; omega)]; simp
  rw [read_storeByte_other _ _ h1]
  by_cases h0 : x = w
  · subst h0
    rw [read_storeByte_same _ _ (by omega)]; simp
  rw [read_storeByte_other _ _ h0]
  simp [h0, h1, h2, h3]

/-! ### What a read of the buffer sees (R23) -/

theorem bufferByte_written {a : Nat} {v : Byte} (k : Nat) (h : Memory.read s.fb a = some v) :
    s.bufferByte k a = v := by simp [bufferByte, h]

theorem bufferByte_unwritten {a : Nat} (k : Nat) (h : Memory.read s.fb a = none) :
    s.bufferByte k a = Config.drawByte s.params.drawStream (s.draws + k) := by simp [bufferByte, h]

theorem byteAt_written {i : Nat} {v : Byte} (h : Memory.read s.fb i = some v) : s.byteAt i = v :=
  s.bufferByte_written i h

theorem loadByte_buffer {a : Nat} (k : Nat) (h : a < s.params.maxFrame) : s.loadByte k a = s.bufferByte k a := by
  simp [loadByte, h]

end State

/-- A word access acts on the aligned word (R56). -/
theorem alignWord_toNat (a : Addr) : (alignWord a).toNat = a.toNat / 4 * 4 := by
  have h : alignWord a = (a >>> 2) <<< 2 := by
    have hones : 0xFFFC#16 = BitVec.allOnes 16 <<< 2 := by decide
    rw [alignWord, hones]
    ext i hi
    simp only [BitVec.getElem_and, BitVec.getElem_shiftLeft, BitVec.getElem_allOnes]
    by_cases hk : i < 2
    · simp [hk]
    · have : 2 + (i - 2) = i := by omega
      simp [hk, this, BitVec.getLsbD_eq_getElem hi]
  have := a.isLt
  rw [h, BitVec.toNat_shiftLeft, BitVec.toNat_ushiftRight, Nat.shiftLeft_eq, Nat.shiftRight_eq_div_pow,
    Nat.mod_eq_of_lt (by omega)]

end Sys2Proof.Machine
end

