-- ==== Sys2Proof/Laws/Codec.lean ====
section
/-! SUPPORT. What each codec and DECODE can answer: one inversion lemma per function, and the bounds of rule R133. -/

namespace Sys2Proof.Machine

/-! ### Nibbles and scaled lengths -/

theorem lowNibble_toNat (v : Byte) : (lowNibble v).toNat = v.toNat % 16 := by
  simp [lowNibble, BitVec.extractLsb'_toNat]

theorem highNibble_toNat (v : Byte) : (highNibble v).toNat = v.toNat / 16 := by
  have := v.isLt
  simp [highNibble, BitVec.extractLsb'_toNat, Nat.shiftRight_eq_div_pow]; omega

/-- `zext_6(v) × 4` is exact (R74). -/
theorem scaleWords_toNat (v : BitVec 4) : (scaleWords v).toNat = 4 * v.toNat := by
  have := v.isLt
  simp only [scaleWords, BitVec.toNat_shiftLeft, BitVec.toNat_setWidth, Nat.shiftLeft_eq]
  omega

/-! ### Sequencing -/

@[simp] theorem andThen_ok {α β : Type} (v : α) (f : α → Result β) : (Result.ok v).andThen f = f v := rfl

@[simp] theorem andThen_fail {α β : Type} (k : ErrKind) (l : Layer) (f : α → Result β) :
    (Result.fail k l).andThen f = .fail k l := rfl

theorem andThen_eq_ok {α β : Type} {r : Result α} {f : α → Result β} {w : β} :
    r.andThen f = .ok w ↔ ∃ v, r = .ok v ∧ f v = .ok w := by
  cases r <;> simp

/-! ### The codecs -/

theorem decEth_ok {b : Nat → Byte} {n : Nat} {h : EthHeader} (e : decEth b n = .ok h) :
    14 ≤ n ∧ h = { dstMac := mac48 b 0, srcMac := mac48 b 6 } := by
  unfold decEth at e
  split_ifs at e with hn
  exact ⟨by omega, by simpa using e.symm⟩

theorem decIpv4_ok {b : Nat → Byte} {m : Nat} {h : IpHeader} (e : decIpv4 b m = .ok h) :
    20 ≤ m ∧ 20 ≤ h.hlen.toNat ∧ h.hlen.toNat ≤ m ∧
    h = { ver := highNibble (b 14), ihl := lowNibble (b 14), hlen := scaleWords (lowNibble (b 14)),
          protocol := b 23, srcIp := be32 b 26, dstIp := be32 b 30 } := by
  simp only [decIpv4] at e
  split_ifs at e with h1 h2
  injection e with e
  subst e
  exact ⟨by omega, by simp only; omega, by simp only; omega, rfl⟩

theorem decTcp_ok {b : Nat → Byte} {l4 r : Nat} {h : TcpHeader} (e : decTcp b l4 r = .ok h) :
    20 ≤ r ∧ 20 ≤ h.tlen.toNat ∧ h.tlen.toNat ≤ r ∧
    h = { srcPort := be16 b l4, dstPort := be16 b (l4 + 2), seq := be32 b (l4 + 4), ack := be32 b (l4 + 8),
          doff := highNibble (b (l4 + 12)), tlen := scaleWords (highNibble (b (l4 + 12))) } := by
  simp only [decTcp] at e
  split_ifs at e with h1 h2
  injection e with e
  subst e
  exact ⟨by omega, by simp only; omega, by simp only; omega, rfl⟩

theorem decUdp_ok {b : Nat → Byte} {l4 r : Nat} {h : UdpHeader} (e : decUdp b l4 r = .ok h) :
    8 ≤ r ∧
    h = { srcPort := be16 b l4, dstPort := be16 b (l4 + 2), length := be16 b (l4 + 4),
          checksum := be16 b (l4 + 6) } := by
  unfold decUdp at e
  split_ifs at e with hr
  exact ⟨by omega, by simpa using e.symm⟩

/-- What a transport header that decoded in a region of r bytes is (R124 to R126). -/
inductive Dispatched (b : Nat → Byte) (protocol : Byte) (l4 r : Nat) : Transport → Prop where
  | tcp (h : TcpHeader) (hp : protocol = 6#8) (hd : decTcp b l4 r = .ok h) : Dispatched b protocol l4 r (.tcp h)
  | udp (h : UdpHeader) (hp : protocol = 17#8) (hd : decUdp b l4 r = .ok h) : Dispatched b protocol l4 r (.udp h)
  | unknown (h6 : protocol ≠ 6#8) (h17 : protocol ≠ 17#8) : Dispatched b protocol l4 r (.unknown protocol)

theorem dispatch_ok {b : Nat → Byte} {p : Byte} {l4 r : Nat} {t : Transport} (e : dispatch b p l4 r = .ok t) :
    Dispatched b p l4 r t := by
  unfold dispatch at e
  split_ifs at e with h6 h17
  · obtain ⟨h, hd, ht⟩ := andThen_eq_ok.1 e
    injection ht with ht
    exact ht ▸ .tcp h h6 hd
  · obtain ⟨h, hd, ht⟩ := andThen_eq_ok.1 e
    injection ht with ht
    exact ht ▸ .udp h h17 hd
  · injection e with ht
    exact ht ▸ .unknown h6 h17

/-- A transport header fits its region (R133). -/
theorem Dispatched.hlen_le {b : Nat → Byte} {p : Byte} {l4 r : Nat} {t : Transport} (d : Dispatched b p l4 r t) :
    t.hlen.toNat ≤ r := by
  cases d with
  | tcp h _ hd => exact (decTcp_ok hd).2.2.1
  | udp h _ hd => exact (decUdp_ok hd).1
  | unknown => simp [Transport.hlen]

/-! ### DECODE -/

/-- Everything a successful DECODE says (R120). -/
structure DecodedBy (b : Nat → Byte) (n : Nat) (ts : BitVec 64) (p : Packet) : Prop where
  eth  : decEth b n = .ok p.eth
  ip   : decIpv4 b (n - 14) = .ok p.ip
  l4   : p.l4 = 14 + p.ip.hlen.toNat
  transport : Dispatched b p.ip.protocol p.l4 (n - p.l4) p.transport
  poff : p.poff = p.l4 + p.transport.hlen.toNat
  plen : p.plen = n - p.poff
  ts   : p.ts = ts

theorem decodeFrame_ok {b : Nat → Byte} {n : Nat} {ts : BitVec 64} {p : Packet} (e : decodeFrame b n ts = .ok p) :
    DecodedBy b n ts p := by
  unfold decodeFrame at e
  obtain ⟨eth, he, e⟩ := andThen_eq_ok.1 e
  obtain ⟨ip, hi, e⟩ := andThen_eq_ok.1 e
  obtain ⟨t, ht, e⟩ := andThen_eq_ok.1 e
  injection e with e
  subst e
  exact ⟨he, hi, rfl, dispatch_ok ht, rfl, rfl, rfl⟩

/-- The offsets of a successful DECODE stay in their ranges (R133). -/
theorem DecodedBy.bounds {b : Nat → Byte} {n : Nat} {ts : BitVec 64} {p : Packet} (d : DecodedBy b n ts p) :
    34 ≤ p.l4 ∧ p.l4 ≤ 77 ∧ p.l4 ≤ p.poff ∧ p.poff ≤ n ∧ p.poff + p.plen = n := by
  have h14 := (decEth_ok d.eth).1
  obtain ⟨hm, h20, hle, -⟩ := decIpv4_ok d.ip
  have hfit := d.transport.hlen_le
  have hl4 := d.l4
  have hpoff := d.poff
  have hplen := d.plen
  have hlt := p.ip.hlen.isLt
  refine ⟨?_, ?_, ?_, ?_, ?_⟩ <;> omega

end Sys2Proof.Machine
end

