-- ==== Sys2Proof/Laws/Decode.lean ====
section
/-! SUPPORT. The decoder's table in numbers: what each mask of the table says about HT, the fields of a selector, and the
table's first match equal to the decoder by fields. -/

namespace Sys2Proof

/-! ### Masks -/

theorem toNat_and_top_mask (x : Selector) (k : Nat) :
    (x &&& (0x7FFFF#19 <<< k)).toNat = x.toNat / 2 ^ k * 2 ^ k := by
  have h : x &&& (0x7FFFF#19 <<< k) = (x >>> k) <<< k := by
    have hones : 0x7FFFF#19 = BitVec.allOnes 19 := by decide
    rw [hones]
    ext i hi
    simp only [BitVec.getElem_and, BitVec.getElem_shiftLeft, BitVec.getElem_allOnes]
    by_cases hk : i < k
    · simp [hk]
    · have : k + (i - k) = i := by omega
      simp [hk, this, BitVec.getLsbD_eq_getElem hi]
  have hle : x.toNat / 2 ^ k * 2 ^ k < 2 ^ 19 := Nat.lt_of_le_of_lt (Nat.div_mul_le_self _ _) x.isLt
  rw [h, BitVec.toNat_shiftLeft, BitVec.toNat_ushiftRight, Nat.shiftLeft_eq, Nat.shiftRight_eq_div_pow,
    Nat.mod_eq_of_lt hle]

/-- A mask of the top bits from bit k on compares HT rounded down to a multiple of 2^k. -/
theorem and_top_eq (x P : Selector) (k : Nat) :
    (x &&& (0x7FFFF#19 <<< k)) = P ↔ x.toNat / 2 ^ k * 2 ^ k = P.toNat := by
  rw [← toNat_and_top_mask, BitVec.toNat_inj]

theorem and_mask_eq (x P m : Selector) (k : Nat) (hm : m = 0x7FFFF#19 <<< k) :
    (x &&& m) = P ↔ x.toNat / 2 ^ k * 2 ^ k = P.toNat := by
  subst hm; exact and_top_eq x P k

theorem and_sizeMask (x P : Selector) : (x &&& 0x60000#19) = P ↔ x.toNat / 131072 * 131072 = P.toNat :=
  and_mask_eq x P _ 17 (by decide)

theorem and_registerMask (x P : Selector) : (x &&& 0x7FFFC#19) = P ↔ x.toNat / 4 * 4 = P.toNat :=
  and_mask_eq x P _ 2 (by decide)

theorem and_windowMask (x P : Selector) : (x &&& 0x7FF80#19) = P ↔ x.toNat / 128 * 128 = P.toNat :=
  and_mask_eq x P _ 7 (by decide)

theorem and_halfWindowMask (x P : Selector) : (x &&& 0x7FFE0#19) = P ↔ x.toNat / 32 * 32 = P.toNat :=
  and_mask_eq x P _ 5 (by decide)

theorem and_bufferMask (p : Params) (x P : Selector) :
    (x &&& bufferMask p) = P ↔ x.toNat / p.maxFrame * p.maxFrame = P.toNat := and_top_eq x P _

theorem and_weMask (x P : Selector) : (x &&& 0x10000#19) = P ↔ x.toNat / 65536 % 2 * 65536 = P.toNat := by
  have h : (0x10000#19) = BitVec.twoPow 19 16 := by decide
  have hbit : x.getLsbD 16 = decide (x.toNat / 65536 % 2 = 1) := by
    simp [BitVec.getLsbD, Nat.testBit_eq_decide_div_mod_eq]
  rw [h, BitVec.and_twoPow, ← BitVec.toNat_inj, hbit]
  by_cases h : x.toNat / 65536 % 2 = 1
  · simp [h]
  · have : x.toNat / 65536 % 2 = 0 := by omega
    simp [this]

theorem and_word_3 (w P : Word) : (w &&& 3#32) = P ↔ w.toNat % 4 = P.toNat := by
  rw [← BitVec.toNat_inj, BitVec.toNat_and]
  have := Nat.and_two_pow_sub_one_eq_mod w.toNat 2
  simp only [Nat.reducePow, Nat.reduceSub] at this
  rw [show (3#32).toNat = 3 from rfl, this]

theorem and_word_2 (w : Word) : (w &&& 2#32) = 2#32 ↔ w.toNat / 2 % 2 = 1 := by
  have h : (2#32) = BitVec.twoPow 32 1 := by decide
  have hbit : w.getLsbD 1 = decide (w.toNat / 2 % 2 = 1) := by
    simp [BitVec.getLsbD, Nat.testBit_eq_decide_div_mod_eq]
  have hne : ¬ 0#32 = BitVec.twoPow 32 1 := by decide
  rw [h, BitVec.and_twoPow, hbit]
  by_cases h : w.toNat / 2 % 2 = 1 <;> simp [h, hne]

theorem and_word_0 (w : Word) : (w &&& 0#32) = 0#32 ↔ True := by simp

/-! ### Parameters and fields -/

theorem maxFrame_cases (p : Params) :
    p.maxFrame = 64 ∨ p.maxFrame = 128 ∨ p.maxFrame = 256 ∨ p.maxFrame = 512 ∨ p.maxFrame = 1024 ∨
    p.maxFrame = 2048 ∨ p.maxFrame = 4096 := by
  obtain ⟨e, d⟩ := p
  fin_cases e <;> simp [Params.maxFrame, Params.maxFrameBits]

theorem maxFrame_le (p : Params) : p.maxFrame ≤ 4096 := by
  rcases maxFrame_cases p with h | h | h | h | h | h | h <;> omega

/-- The last word of the buffer is whole: MAX_FRAME is a multiple of 4 (R141). -/
theorem alignedWord_in_buffer (p : Params) {a : Nat} (h : a < p.maxFrame) : a / 4 * 4 + 3 < p.maxFrame := by
  rcases maxFrame_cases p with h' | h' | h' | h' | h' | h' | h' <;> omega

theorem selAddr_toNat (ht : Selector) : (selAddr ht).toNat = ht.toNat % 65536 := by
  simp [selAddr, BitVec.extractLsb'_toNat]

theorem selSize_toNat (ht : Selector) : (selSize ht).toNat = ht.toNat / 131072 := by
  have := ht.isLt
  simp [selSize, BitVec.extractLsb'_toNat, Nat.shiftRight_eq_div_pow]; omega

theorem selWe_eq (ht : Selector) : selWe ht = decide (ht.toNat / 65536 % 2 = 1) := by
  simp [selWe, BitVec.getLsbD, Nat.testBit_eq_decide_div_mod_eq]

theorem getLsbD_18_eq (ht : Selector) : ht.getLsbD 18 = decide (ht.toNat / 262144 % 2 = 1) := by
  simp [BitVec.getLsbD, Nat.testBit_eq_decide_div_mod_eq]

/-- A frame-buffer row compares SIZE and WE, and bounds ADDR by MAX_FRAME. -/
theorem bufferRow_fields (p : Params) (x : Selector) (q : Nat) :
    x.toNat / p.maxFrame * p.maxFrame = q * 65536 ↔ x.toNat / 65536 = q ∧ x.toNat % 65536 < p.maxFrame := by
  rcases maxFrame_cases p with h | h | h | h | h | h | h <;> rw [h] <;> omega

/-! ### First match -/

/-- The table's first match (R84) is what the fields SIZE, WE and ADDR say. -/
theorem decodeHt_eq_byFields (p : Params) (ht : Selector) (wd : Word) :
    decodeHt p ht wd = .ok (decodeByFields p ht wd) := by
  have b0 := bufferRow_fields p ht 0
  have b1 := bufferRow_fields p ht 1
  have b4 := bufferRow_fields p ht 4
  have b5 := bufferRow_fields p ht 5
  have hx := ht.isLt
  have hm := maxFrame_le p
  simp only [decodeHt, htRows, bufferRows, controlRows, resultRows, inertRows, List.cons_append, List.nil_append,
    regRow, htRow]
  simp only [decodeRows, HtRow.hits, Bool.and_eq_true, beq_iff_eq]
  simp only [and_sizeMask, and_registerMask, and_windowMask, and_halfWindowMask, and_weMask, and_bufferMask, and_word_3,
    and_word_2, and_word_0, and_true]
  simp only [BitVec.toNat_ofNat, Nat.reducePow, Nat.reduceMod]
  simp only [Nat.zero_mul, Nat.one_mul, Nat.reduceMul] at b0 b1 b4 b5
  simp only [b0, b1, b4, b5]
  have hs1 : selSize ht = 1#2 ↔ ht.toNat / 131072 = 1 := by rw [← BitVec.toNat_inj, selSize_toNat]; rfl
  have hs3 : selSize ht = 3#2 ↔ ht.toNat / 131072 = 3 := by rw [← BitVec.toNat_inj, selSize_toNat]; rfl
  simp only [decodeByFields, hs1, hs3]
  simp only [decodeAccess, inBuffer, inRegWindow, Config.regBase, Config.regEnd, Bool.and_eq_true, decide_eq_true_eq,
    selAddr_toNat, selWidth, getLsbD_18_eq]
  generalize hA : selAddr ht = a
  have ha : a.toNat = ht.toNat % 65536 := by rw [← hA, selAddr_toNat]
  rw [selWe_eq]
  have hw1 : wd.getLsbD 1 = decide (wd.toNat / 2 % 2 = 1) := by
    simp [BitVec.getLsbD, Nat.testBit_eq_decide_div_mod_eq]
  have hw0 : wd.getLsbD 0 = decide (wd.toNat % 2 = 1) := by simp [BitVec.getLsbD]
  generalize ht.toNat = x at *
  have htop : x / 65536 < 8 := by omega
  by_cases h1 : x / 131072 = 1
  · rw [if_pos (by omega), if_pos h1]
  rw [if_neg (by omega), if_neg h1]
  by_cases h3 : x / 131072 = 3
  · rw [if_pos (by omega), if_pos h3]
  rw [if_neg (by omega), if_neg h3]
  by_cases hin : x % 65536 < p.maxFrame
  · have ht4 : x / 65536 = 0 ∨ x / 65536 = 1 ∨ x / 65536 = 4 ∨ x / 65536 = 5 := by omega
    have hd : x / 262144 = x / 65536 / 4 := by omega
    rcases ht4 with h | h | h | h <;> simp [hin, hd, h]
  by_cases hwin : 4096 ≤ x % 65536 ∧ x % 65536 < 4224
  · have ht4 : x / 65536 = 0 ∨ x / 65536 = 1 ∨ x / 65536 = 4 ∨ x / 65536 = 5 := by omega
    have hd : x / 262144 = x / 65536 / 4 := by omega
    rcases ht4 with h | h | h | h
    · have h128 : x / 128 * 128 = 4096 := by omega
      simp [hin, hd, h, h128, hwin]
    · have h128 : x / 128 * 128 = 69632 := by omega
      simp [hin, hd, h, h128, hwin]
    · have hj : ∃ j, j < 32 ∧ a.toNat / 4 = 1024 + j := ⟨x % 65536 / 4 - 1024, by omega, by omega⟩
      obtain ⟨j, hj, haj⟩ := hj
      have k4 : x / 4 * 4 = 266240 + 4 * j := by omega
      have k32 : x / 32 * 32 = 266240 + 32 * (j / 8) := by omega
      have k128 : x / 128 * 128 = 266240 := by omega
      simp only [hin, hd, h, hwin, k4, k32, k128, decodeRegWord, haj]
      interval_cases j <;> simp
    · have hj : ∃ j, j < 32 ∧ a.toNat / 4 = 1024 + j := ⟨x % 65536 / 4 - 1024, by omega, by omega⟩
      obtain ⟨j, hj, haj⟩ := hj
      have k4 : x / 4 * 4 = 331776 + 4 * j := by omega
      have k32 : x / 32 * 32 = 331776 + 32 * (j / 8) := by omega
      have k128 : x / 128 * 128 = 331776 := by omega
      simp only [hin, hd, h, hwin, k4, k32, k128, decodeRegWord, haj, hw1, hw0]
      by_cases hj0 : j = 0
      · subst hj0
        by_cases c1 : wd.toNat / 2 % 2 = 1
        · simp [c1]
        · by_cases c0 : wd.toNat % 2 = 1
          · have c : wd.toNat % 4 = 1 := by omega
            simp [c1, c0, c]
          · have c : wd.toNat % 4 = 0 := by omega
            simp [c1, c0, c]
      · interval_cases j <;> simp_all
  · have n128a : ¬ x / 128 * 128 = 4096 := by omega
    have n128b : ¬ x / 128 * 128 = 69632 := by omega
    have n128c : ¬ x / 128 * 128 = 266240 := by omega
    have n128d : ¬ x / 128 * 128 = 331776 := by omega
    have n4 : ∀ K, (K / 128 * 128 = 266240 ∨ K / 128 * 128 = 331776) → ¬ x / 4 * 4 = K := by omega
    have n32 : ∀ K, (K / 128 * 128 = 266240 ∨ K / 128 * 128 = 331776) → ¬ x / 32 * 32 = K := by omega
    have hd : x / 262144 = x / 65536 / 4 := by omega
    have ht4 : x / 65536 = 0 ∨ x / 65536 = 1 ∨ x / 65536 = 4 ∨ x / 65536 = 5 := by omega
    rcases ht4 with h | h | h | h <;> simp [hin, hd, h, hwin, n128a, n128b, n128c, n128d, n4, n32]
end Sys2Proof
end

