-- ==== Sys2Proof/Laws/Exec.lean ====
section
/-! SUPPORT. Everything an instruction can do, said once: if exec answers a next state, that state is one of the effects
below. Whole-machine rules are case splits over them. -/

namespace Sys2Proof.Machine

/-- The effects of the block's operations. -/
inductive Effect (i : Instr) (s : State) : State → Prop where
  /-- Nothing changes. -/
  | nothing : Effect i s s
  /-- A host read returns a word. -/
  | reply (v : Word) (n : Nat) : Effect i s ((s.returns v).useDraws n)
  /-- An engine row is evaluated by itself. -/
  | evaluated (f : (Nat → Byte) → Nat → EngineVars → EngineVars) : Effect i s (s.evaluate f)
  /-- One byte is stored, not BUSY. -/
  | stored8 (a : Addr) (v : Byte) (hi : i = .bufWr8 a v) (h : s.phase ≠ .busy) : Effect i s (s.storeByte a.toNat v)
  /-- One word is stored, not BUSY. -/
  | stored32 (a : Addr) (v : Word) (hi : i = .bufWr32 a v) (h : s.phase ≠ .busy) :
      Effect i s (s.storeWord (alignWord a).toNat v)
  /-- FRAME_LEN is written, not BUSY. -/
  | lenSet (len : BitVec 16) (hi : i = .lenWr len) (h : s.phase ≠ .busy) : Effect i s { s with frameLen := len }
  /-- A half of TS is written, not BUSY. -/
  | tsSet (ts : BitVec 64) (hi : (∃ v, i = .tsLoWr v) ∨ ∃ v, i = .tsHiWr v) (h : s.phase ≠ .busy) :
      Effect i s { s with ts := ts }
  /-- IRQ_EN is written. -/
  | irqSet (e : Bool) (hi : i = .ctrlWr e ∨ (i = .ctrlStart e ∧ s.phase = .busy)) : Effect i s { s with irqEn := e }
  /-- A soft reset. -/
  | softReset (hi : i = .ctrlSrst) : Effect i s s.softReset
  /-- A START is accepted. -/
  | started (e : Bool) (hi : i = .ctrlStart e) (h : s.phase ≠ .busy) (hl : s.frameLen.toNat ≤ s.params.maxFrame) :
      Effect i s (s.startDecode e)
  /-- The engine completes. -/
  | completed (hi : i = .engineComplete) (h : s.phase = .busy) : Effect i s s.complete

theorem unlessBusy_effect {i : Instr} {s : State} {w : State → State} (h : s.phase ≠ .busy → Effect i s (w s)) :
    Effect i s (s.unlessBusy w) := by
  by_cases hb : s.phase = .busy
  · rw [s.unlessBusy_busy w hb]; exact .nothing
  · rw [s.unlessBusy_ready w hb]; exact h hb

theorem reply_effect {i : Instr} {s : State} (v : Word) : Effect i s (s.returns v) := .reply v 0

theorem start_effect {i : Instr} {e : Bool} {s t : State} (hi : i = .ctrlStart e)
    (h : execCtrlStart e s = .next t) : Effect i s t := by
  have ready : s.phase ≠ .busy → s.tryStart e = .next t → Effect i s t := by
    intro hp h
    unfold State.tryStart at h
    split_ifs at h with hl
    injection h with h
    exact h ▸ .started e hi hp (by omega)
  unfold execCtrlStart at h
  split at h
  · next hp => injection h with h; exact h ▸ .irqSet e (.inr ⟨hi, hp⟩)
  · next hp => exact ready (by simp [hp]) h
  · next hp => exact ready (by simp [hp]) h

theorem complete_effect {s t : State} (h : execEngineComplete s = .next t) : Effect .engineComplete s t := by
  unfold execEngineComplete at h
  split at h
  · next hp => injection h with h; exact h ▸ .completed rfl hp
  · cases h
  · cases h

/-- If an instruction answers a next state, its effect is one of the above. -/
theorem exec_effect {i : Instr} {s t : State} (h : exec i s = .next t) : Effect i s t := by
  cases i with
  | engineComplete => exact complete_effect h
  | ctrlStart e => exact start_effect rfl h
  | halfRefused we a => exact nomatch (show Host.Outcome.refused _ = _ from h)
  | size11Refused we a => exact nomatch (show Host.Outcome.refused _ = _ from h)
  | bufWr8 a v => injection h with h; exact h ▸ unlessBusy_effect (.stored8 a v rfl)
  | bufWr32 a v => injection h with h; exact h ▸ unlessBusy_effect (.stored32 a v rfl)
  | bufRd8 a => injection h with h; exact h ▸ .reply _ 1
  | bufRd32 a => injection h with h; exact h ▸ .reply _ 4
  | lenWr v => injection h with h; exact h ▸ unlessBusy_effect (.lenSet v rfl)
  | tsLoWr v => injection h with h; exact h ▸ unlessBusy_effect (.tsSet _ (.inl ⟨v, rfl⟩))
  | tsHiWr v => injection h with h; exact h ▸ unlessBusy_effect (.tsSet _ (.inr ⟨v, rfl⟩))
  | ctrlWr e => injection h with h; exact h ▸ .irqSet e (.inl rfl)
  | ctrlSrst => injection h with h; exact h ▸ .softReset rfl
  | decode | decEth | decIpv4 | dispatchTcp | dispatchUdp | dispatchUnknown _ | decTcp | decUdp =>
    injection h with h; exact h ▸ .evaluated _
  | regByteWr _ _ | statusWr _ | resWrLow _ _ | resWrHigh _ _ | rsvdWr _ _ | unmappedWr _ _ _ =>
    injection h with h; exact h ▸ .nothing
  | regByteRd _ | ctrlRd | statusRd | lenRd | tsLoRd | tsHiRd | resTsLoRd | resTsHiRd | dstMacHiRd | dstMacLoRd
  | srcMacHiRd | srcMacLoRd | ipInfoRd | srcIpRd | dstIpRd | l4InfoRd | portsRd | tcpSeqRd | tcpAckRd | udpLenCsumRd
  | region0Rd | region1Rd | rsvdRd _ | unmappedRd _ _ =>
    injection h with h; exact h ▸ reply_effect _

/-! ### What a completion leaves alone -/

/-- ENGINE_COMPLETE publishes or takes a failure, and uses its draws (R129). -/
theorem complete_cases (s : State) :
    (∃ p, decodeFrame s.byteAt s.frameLen.toNat s.ts = .ok p ∧ s.complete = (s.publish p.results).engineIdle) ∨
    (∃ k l, decodeFrame s.byteAt s.frameLen.toNat s.ts = .fail k l ∧ s.complete = (s.takeFailure k l).engineIdle) := by
  unfold State.complete
  cases h : decodeFrame s.byteAt s.frameLen.toNat s.ts with
  | ok p => exact .inl ⟨p, rfl, rfl⟩
  | fail k l => exact .inr ⟨k, l, rfl, rfl⟩

/-- The step of an instance whose next event is an operation that decodes to `i` (R62). -/
theorem step_op {s : State} {w : InstrWord} {later : List Event} {i : Instr} (he : s.inputs = .op w :: later)
    (hd : decode s.params w = .ok i) : step s = exec i { s with inputs := later } := by
  simp [step, State.nextEvent, he, State.takeEvent, hd]

end Sys2Proof.Machine
end

