-- ==== Sys2Proof/Laws/Platform.lean ====
section
/-! SUPPORT. What one move of a platform can do, and how many instances a platform has. -/

namespace Sys2Proof.Machine

@[simp] theorem Platform.instances_set (p : Platform) (i : Nat) (t : State) :
    (p.set i t).instances = p.instances.set i t := by
  cases i <;> rfl

/-- R9: the platform after reset has N_INSTANCES instances. -/
theorem Platform.reset_length (p : PlatformParams) : (Platform.reset p).instances.length = p.nInstances := by
  simp [Platform.reset, Platform.instances, PlatformParams.nInstances]

/-- R9: N_INSTANCES is at least 1. -/
theorem PlatformParams.nInstances_pos (p : PlatformParams) : 1 ≤ p.nInstances := Nat.succ_pos _

/-- Everything a move can do: nothing, for an index past the last instance, or one step of the instance. -/
theorem Platform.stepAt_cases {p q : Platform} {i : Nat} (h : p.stepAt i = .next q) :
    (p.instances[i]? = none ∧ q = p) ∨
      ∃ s t, p.instances[i]? = some s ∧ step s = .next t ∧ q = p.set i t := by
  unfold Platform.stepAt at h
  split at h
  · next hn => injection h with h; exact .inl ⟨hn, h.symm⟩
  · next s hs =>
    split at h
    · next t ht => injection h with h; exact .inr ⟨s, t, hs, ht, h.symm⟩
    · cases h
    · cases h

end Sys2Proof.Machine
end

