-- ==== Sys2Proof/Laws/Run.lean ====
section
/-! SUPPORT. How runs are put together: one run after another, and a run cut in two. -/

namespace Sys2Proof.Machine

@[simp] theorem thenRun_next (s : State) (f : State → Host.Outcome State Fault Refusal) :
    thenRun (.next s) f = f s := rfl

/-- A run that goes on to a next state went through one. -/
theorem thenRun_eq_next {o : Host.Outcome State Fault Refusal} {f : State → Host.Outcome State Fault Refusal} {t : State}
    (h : thenRun o f = .next t) : ∃ s, o = .next s ∧ f s = .next t := by
  cases o with
  | next s => exact ⟨s, rfl, h⟩
  | fault r => cases h
  | refused r => cases h

@[simp] theorem runSteps_zero (s : State) : runSteps 0 s = .next s := rfl

/-- `j + k` steps are `j` steps, then `k`. -/
theorem runSteps_add (j k : Nat) (s : State) : runSteps (j + k) s = thenRun (runSteps j s) (runSteps k) := by
  induction j generalizing s with
  | zero => rw [Nat.zero_add]; rfl
  | succ j ih =>
    rw [Nat.succ_add]
    simp only [runSteps]
    cases step s with
    | next t => exact ih t
    | fault r => rfl
    | refused r => rfl

end Sys2Proof.Machine
end

