-- ==== Sys2Proof/Tests/Slice0.lean ====
section
/-! SUPPORT. Tests: ill-formed terms refused, words written out from the spec's encodings, single steps on the vectors of
spec/95_test_vectors.md, and a witness for the hypotheses of each statement. -/

open Sys2Proof Sys2Proof.Machine

namespace Sys2Proof.Tests

/-! ### WellFormed: one ill-formed term for each check -/

/-- R126: bytes 6 and 17 select another row. -/
theorem test_illformed_unknown :
    Instr.wellFormed Params.default (.dispatchUnknown 6#8) = false ∧
    Instr.wellFormed Params.default (.dispatchUnknown 17#8) = false := by decide

/-- R51: the first address past the buffer, at MAX_FRAME = 2048 and at MAX_FRAME = 64. -/
theorem test_illformed_buffer :
    Instr.wellFormed Params.default (.bufWr8 0x0800#16 0#8) = false ∧
    Instr.wellFormed Params.default (.bufWr32 0x0800#16 0#32) = false ∧
    Instr.wellFormed Params.default (.bufRd8 0x0800#16) = false ∧
    Instr.wellFormed Params.default (.bufRd32 0x0800#16) = false ∧
    Instr.wellFormed ⟨0, 0⟩ (.bufRd8 0x0040#16) = false := by decide

/-- R51: the addresses next to the register window. -/
theorem test_illformed_regByte :
    Instr.wellFormed Params.default (.regByteRd 0x0FFF#16) = false ∧
    Instr.wellFormed Params.default (.regByteWr 0x1080#16 0#8) = false := by decide

/-- R155: outside each row's range. -/
theorem test_illformed_resWr :
    Instr.wellFormed Params.default (.resWrLow 0x101F#16 0#32) = false ∧
    Instr.wellFormed Params.default (.resWrLow 0x1040#16 0#32) = false ∧
    Instr.wellFormed Params.default (.resWrHigh 0x103F#16 0#32) = false ∧
    Instr.wellFormed Params.default (.resWrHigh 0x1060#16 0#32) = false := by decide

/-- R29: registers that are not reserved. -/
theorem test_illformed_reserved :
    Instr.wellFormed Params.default (.rsvdRd 0x1010#16) = false ∧
    Instr.wellFormed Params.default (.rsvdRd 0x1020#16) = false ∧
    Instr.wellFormed Params.default (.rsvdWr 0x105F#16 0#32) = false ∧
    Instr.wellFormed Params.default (.rsvdWr 0x1080#16 0#32) = false := by decide

/-- R51: the buffer and the register window are mapped. -/
theorem test_illformed_unmapped :
    Instr.wellFormed Params.default (.unmappedRd .byte 0x07FF#16) = false ∧
    Instr.wellFormed Params.default (.unmappedRd .word 0x1000#16) = false ∧
    Instr.wellFormed Params.default (.unmappedWr .word 0x0000#16 0#32) = false ∧
    Instr.wellFormed Params.default (.unmappedWr .byte 0x107F#16 0#32) = false := by decide

/-! ### Words written out from the spec's encodings (R77, R78, R82, R84, the opcode table's patterns) -/

/-- The engine rows have no bits; their names are the model's (log 10). -/
theorem test_decode_engine :
    decode Params.default (.engine .decode) = .ok .decode ∧
    decode Params.default (.engine .decEth) = .ok .decEth ∧
    decode Params.default (.engine .decIpv4) = .ok .decIpv4 ∧
    decode Params.default (.engine .decTcp) = .ok .decTcp ∧
    decode Params.default (.engine .decUdp) = .ok .decUdp ∧
    decode Params.default (.engine .complete) = .ok .engineComplete := by decide

/-- R77: 6, 17, and the values next to them. -/
theorem test_decode_protocol :
    decode Params.default (.proto8 0b00000110#8) = .ok .dispatchTcp ∧
    decode Params.default (.proto8 0b00010001#8) = .ok .dispatchUdp ∧
    decode Params.default (.proto8 0b00000111#8) = .ok (.dispatchUnknown 7#8) ∧
    decode Params.default (.proto8 0b00010000#8) = .ok (.dispatchUnknown 16#8) := by decide

/-- R158: SIZE in bits 18:17, WE in bit 16 (T-H-23). -/
theorem test_decode_sizes :
    decode Params.default (.ht 0b0100001000000000000#19 0#32) = .ok (.halfRefused false 0x1000#16) ∧
    decode Params.default (.ht 0x30000#19 0#32) = .ok (.halfRefused true 0x0000#16) ∧
    decode Params.default (.ht 0x61000#19 0#32) = .ok (.size11Refused false 0x1000#16) ∧
    decode Params.default (.ht 0b1110000000000000100#19 0#32) = .ok (.size11Refused true 0x0004#16) := by decide

/-- R140 to R143 (T-H-1 to T-H-5), bit by bit. -/
theorem test_decode_buffer :
    decode Params.default (.ht 0b0010000000000101010#19 0x1#32) = .ok (.bufWr8 0x002A#16 0x01#8) ∧
    decode Params.default (.ht 0b1010000000000000010#19 0xAABBCCDD#32) = .ok (.bufWr32 0x0002#16 0xAABBCCDD#32) ∧
    decode Params.default (.ht 0b0000000000000000001#19 0#32) = .ok (.bufRd8 0x0001#16) ∧
    decode Params.default (.ht 0b1000000000000000011#19 0#32) = .ok (.bufRd32 0x0003#16) := by decide

/-- R159, R160 (T-H-19, T-H-20). -/
theorem test_decode_regByte :
    decode Params.default (.ht 0x01004#19 0#32) = .ok (.regByteRd 0x1004#16) ∧
    decode Params.default (.ht 0x11000#19 0x101#32) = .ok (.regByteWr 0x1000#16 0x01#8) := by decide

/-- R144 to R148, R155 (T-H-7, T-H-12, T-H-13, T-H-15, T-H-25), the address and WDATA bit by bit. -/
theorem test_decode_control :
    decode Params.default (.ht 0b1010001000000000000#19 0b011#32) = .ok .ctrlSrst ∧
    decode Params.default (.ht 0b1010001000000000000#19 0b111#32) = .ok .ctrlSrst ∧
    decode Params.default (.ht 0b1010001000000000000#19 0b101#32) = .ok (.ctrlStart true) ∧
    decode Params.default (.ht 0b1010001000000000000#19 0b001#32) = .ok (.ctrlStart false) ∧
    decode Params.default (.ht 0b1010001000000000000#19 0b100#32) = .ok (.ctrlWr true) ∧
    decode Params.default (.ht 0b1010001000000000011#19 0xFFFFFFF8#32) = .ok (.ctrlWr false) ∧
    decode Params.default (.ht 0x41000#19 0#32) = .ok .ctrlRd ∧
    decode Params.default (.ht 0b1000001000000000100#19 0#32) = .ok .statusRd ∧
    decode Params.default (.ht 0x51004#19 0x6#32) = .ok (.statusWr 0x6#32) := by decide

/-- R149 to R153 (T-H-8, T-H-14). -/
theorem test_decode_length_timestamp :
    decode Params.default (.ht 0x51008#19 0xABCD0800#32) = .ok (.lenWr 0x0800#16) ∧
    decode Params.default (.ht 0x41008#19 0#32) = .ok .lenRd ∧
    decode Params.default (.ht 0x5100C#19 0x89ABCDEF#32) = .ok (.tsLoWr 0x89ABCDEF#32) ∧
    decode Params.default (.ht 0x4100C#19 0#32) = .ok .tsLoRd ∧
    decode Params.default (.ht 0x51010#19 0x01234567#32) = .ok (.tsHiWr 0x01234567#32) ∧
    decode Params.default (.ht 0x41010#19 0#32) = .ok .tsHiRd := by decide

/-- R154 with the addresses of R29, the first eight. -/
theorem test_decode_results_low :
    decode Params.default (.ht 0x41020#19 0#32) = .ok .resTsLoRd ∧
    decode Params.default (.ht 0x41024#19 0#32) = .ok .resTsHiRd ∧
    decode Params.default (.ht 0x41028#19 0#32) = .ok .dstMacHiRd ∧
    decode Params.default (.ht 0x4102C#19 0#32) = .ok .dstMacLoRd ∧
    decode Params.default (.ht 0x41030#19 0#32) = .ok .srcMacHiRd ∧
    decode Params.default (.ht 0x41034#19 0#32) = .ok .srcMacLoRd ∧
    decode Params.default (.ht 0b1000001000000111000#19 0#32) = .ok .ipInfoRd ∧
    decode Params.default (.ht 0x4103F#19 0#32) = .ok .srcIpRd := by decide

/-- R154 with the addresses of R29, the last eight. -/
theorem test_decode_results_high :
    decode Params.default (.ht 0x41040#19 0#32) = .ok .dstIpRd ∧
    decode Params.default (.ht 0x41044#19 0#32) = .ok .l4InfoRd ∧
    decode Params.default (.ht 0b1000001000001001000#19 0#32) = .ok .portsRd ∧
    decode Params.default (.ht 0x4104C#19 0#32) = .ok .tcpSeqRd ∧
    decode Params.default (.ht 0x41050#19 0#32) = .ok .tcpAckRd ∧
    decode Params.default (.ht 0x41054#19 0#32) = .ok .udpLenCsumRd ∧
    decode Params.default (.ht 0x41058#19 0#32) = .ok .region0Rd ∧
    decode Params.default (.ht 0x4105C#19 0#32) = .ok .region1Rd := by decide

/-- R155 to R157 (T-H-16 to T-H-18, T-H-21, T-H-22); at MAX_FRAME = 4096 address 0x0800 is in the buffer (R84). -/
theorem test_decode_inert :
    decode Params.default (.ht 0x5103C#19 0x1#32) = .ok (.resWrLow 0x103C#16 0x1#32) ∧
    decode Params.default (.ht 0b1010001000001001000#19 0#32) = .ok (.resWrHigh 0x1048#16 0#32) ∧
    decode Params.default (.ht 0x41014#19 0#32) = .ok (.rsvdRd 0x1014#16) ∧
    decode Params.default (.ht 0x51018#19 0xFFFFFFFF#32) = .ok (.rsvdWr 0x1018#16 0xFFFFFFFF#32) ∧
    decode Params.default (.ht 0x4FFFC#19 0#32) = .ok (.unmappedRd .word 0xFFFC#16) ∧
    decode Params.default (.ht 0x10800#19 0x55#32) = .ok (.unmappedWr .byte 0x0800#16 0x55#32) ∧
    decode ⟨6, 0⟩ (.ht 0x10800#19 0x55#32) = .ok (.bufWr8 0x0800#16 0x55#8) := by decide

/-- The table words as the host numbers them: HT in bits 18:0, no WDATA bits, or WDATA in bits 55:24 (log 10). -/
theorem test_decodeTableWord :
    decodeTableWord 24 0x41048 = some .portsRd ∧
    decodeTableWord 24 0x4002A = some (.bufRd32 0x002A#16) ∧
    decodeTableWord 24 0x80000 = none ∧
    decodeTableWord 8 0x06 = some .dispatchTcp ∧
    decodeTableWord 0 0 = some .engineComplete ∧
    decodeTableWord 56 0x00000005051000 = some (.ctrlStart true) := by decide

/-! ### Small states and the frames of spec/95 §1 -/

/-- The bytes of a frame as written cells, from address `a` on. -/
def cells (a : Nat) : List Byte → Memory
  | [] => []
  | b :: rest => (a, b) :: cells (a + 1) rest

/-- BUSY with the frame in the buffer and LEN its length. -/
def busyWith (frame : List Byte) : State :=
  { State.reset with phase := .busy, fb := cells 0 frame, frameLen := BitVec.ofNat 16 frame.length }

/-- BUSY, nothing written, LEN as given. -/
def busyLen (n : BitVec 16) : State := { State.reset with phase := .busy, frameLen := n }

/-- DONE after the failure of a zero-length frame. -/
def doneFailed : State := { State.reset with phase := .done, err := some .truncatedFrame, layer := some .eth }

/-- A check of the next state; false for a fault or a refusal. -/
def answers (o : Host.Outcome State Fault Refusal) (check : State → Bool) : Bool :=
  match o with
  | .next t => check t
  | .fault _ => false
  | .refused _ => false

/-- The operation is refused, for this reason. -/
def refuses (o : Host.Outcome State Fault Refusal) (reason : Refusal) : Bool :=
  match o with
  | .next _ => false
  | .fault _ => false
  | .refused r => r == reason

/-- A next state exists when a check of it holds. -/
theorem exists_next {o : Host.Outcome State Fault Refusal} {check : State → Bool} (h : answers o check = true) :
    ∃ t, o = .next t ∧ check t = true := by
  cases o with
  | next t => exact ⟨t, rfl, h⟩
  | fault r => cases h
  | refused r => cases h

/-- The Ethernet header of every frame of §1. -/
def ethBytes : List Byte :=
  [0x00, 0x11, 0x22, 0x33, 0x44, 0x55, 0x66, 0x77, 0x88, 0x99, 0xaa, 0xbb, 0x08, 0x00]

/-- F_UDP. -/
def fUdp : List Byte :=
  ethBytes ++
  [0x45, 0x00, 0x00, 0x1e, 0x00, 0x00, 0x40, 0x00, 0x40, 0x11, 0x00, 0x00, 0xc0, 0xa8, 0x00, 0x01, 0xc0, 0xa8, 0x00,
   0x02] ++ [0x14, 0xe9, 0x00, 0x35, 0x00, 0x0a, 0x00, 0x00] ++ [0x01, 0x02]

/-- F_TCP. -/
def fTcp : List Byte :=
  ethBytes ++
  [0x45, 0x00, 0x00, 0x2b, 0x00, 0x01, 0x40, 0x00, 0x40, 0x06, 0x00, 0x00, 0x0a, 0x00, 0x00, 0x01, 0x0a, 0x00, 0x00,
   0x02] ++
  [0x04, 0xd2, 0x00, 0x50, 0x00, 0x00, 0x00, 0x01, 0x00, 0x00, 0x00, 0x00, 0x50, 0x02, 0x72, 0x10, 0x00, 0x00, 0x00,
   0x00] ++ [0x61, 0x62, 0x63]

/-- F_ICMP. -/
def fIcmp : List Byte :=
  ethBytes ++
  [0x45, 0x00, 0x00, 0x1c, 0x00, 0x02, 0x00, 0x00, 0x40, 0x01, 0x00, 0x00, 0xc0, 0xa8, 0x00, 0x01, 0xc0, 0xa8, 0x00,
   0x02] ++ [0x08, 0x00, 0xf7, 0xff, 0x00, 0x00, 0x00, 0x00]

/-- F_IHL15. -/
def fIhl15 : List Byte := ethBytes ++ [0x4f] ++ List.replicate 29 0x00

/-- A frame with one byte replaced. -/
def patched (frame : List Byte) (i : Nat) (v : Byte) : List Byte := frame.set i v

/-! ### Single steps: the engine (§3.1 to §3.6) -/

/-- The F_UDP column of §3.6. -/
theorem test_engineComplete_udp :
    answers (exec .engineComplete { busyWith fUdp with ts := 0x0123456789ABCDEF#64 }) (fun t =>
      t.statusWord == 0x006#32 && t.results.resTsLoWord == 0x89ABCDEF#32 && t.results.dstMacLoWord == 0x22334455#32 &&
      t.results.srcMacHiWord == 0x00006677#32 && t.results.ipInfoWord == 0x00141145#32 &&
      t.results.dstIp == 0xC0A80002#32 && t.results.l4InfoWord == 0x00080002#32 &&
      t.results.portsWord == 0x14E90035#32 && t.results.udpLenCsumWord == 0x000A0000#32 &&
      t.results.region0Word == 0x002A0022#32 && t.results.region1Word == 0x2#32) = true := by decide

/-- The F_IHL15 column of §3.6, and T-EC-1: an unwritten buffer with LEN = 14 fails on length alone. -/
theorem test_engineComplete_failures :
    answers (exec .engineComplete (busyWith fIhl15))
      (fun t => t.statusWord == 0x222#32 && t.results == Results.cleared) = true ∧
    answers (exec .engineComplete (busyLen 14)) (fun t => t.statusWord == 0x212#32) = true := by decide

/-- T-TCP-10, read by DECODE evaluated by itself. -/
theorem test_decode_tcp :
    answers (exec .decode (busyWith fTcp)) (fun t =>
      match t.engine.returned with
      | some (.ok p) => p.l4 == 34 && p.poff == 54 && p.plen == 3 && p.results.tcpSeq == 1#32 &&
          p.results.l4InfoWord == 0x05140001#32 && p.results.portsWord == 0x04D20050#32
      | _ => false) = true := by decide

/-- T-TCP-4 (data offset 4) and T-UDP-2 (7 bytes left), through DECODE. -/
theorem test_decode_failures :
    answers (exec .decode (busyWith (patched fTcp 46 0x40)))
      (fun t => t.engine.returned == some (.fail .invalidHeaderLength .tcp)) = true ∧
    answers (exec .decode (busyWith (fUdp.take 41)))
      (fun t => t.engine.returned == some (.fail .truncatedFrame .udp)) = true := by decide

/-- T-ETH-2 and T-ETH-3: 13 bytes and 14 bytes. -/
theorem test_decEth_boundary :
    answers (exec .decEth (busyWith (fUdp.take 13)))
      (fun t => t.engine.failure == some (.truncatedFrame, .eth)) = true ∧
    answers (exec .decEth (busyWith (fUdp.take 14)))
      (fun t => t.engine.eth == some ⟨0x001122334455#48, 0x66778899AABB#48⟩) = true := by decide

/-- T-IP-2 (19 bytes) and T-IP-3 (IHL 4). -/
theorem test_decIpv4_failures :
    answers (exec .decIpv4 (busyWith (fUdp.take 33)))
      (fun t => t.engine.failure == some (.truncatedFrame, .ipv4)) = true ∧
    answers (exec .decIpv4 (busyWith (patched fUdp 14 0x44)))
      (fun t => t.engine.failure == some (.invalidHeaderLength, .ipv4)) = true := by decide

/-- T-IP-12: the version is not checked. -/
theorem test_decIpv4_version :
    answers (exec .decIpv4 (busyWith (patched fUdp 14 0x65))) (fun t =>
      t.engine.ip == some ⟨6, 5, 20, 0x11, 0xC0A80001#32, 0xC0A80002#32⟩ && t.engine.l4 == 34) = true := by decide

/-- A BUSY block whose engine has decoded a 20-byte IPv4 header. -/
def atTransport (frame : List Byte) : State :=
  { busyWith frame with engine := { EngineVars.cleared with l4 := 34 } }

/-- T-TCP-9: sequence and acknowledgement numbers all ones. -/
theorem test_decTcp_numbers :
    answers (exec .decTcp (atTransport (fTcp.take 38 ++ List.replicate 8 0xff ++ fTcp.drop 46))) (fun t =>
      t.engine.transport == some (.tcp ⟨1234, 80, 0xFFFFFFFF#32, 0xFFFFFFFF#32, 5, 20⟩)) = true := by decide

/-- T-UDP-4: the length field is not checked. -/
theorem test_decUdp_length :
    answers (exec .decUdp (atTransport (patched (patched fUdp 38 0xff) 39 0xff)))
      (fun t => t.engine.transport == some (.udp ⟨5353, 53, 0xFFFF#16, 0#16⟩)) = true := by decide

/-- T-TCP-5: 24 bytes announced, 23 left. -/
theorem test_dispatchTcp_tooLong :
    answers (exec .dispatchTcp (atTransport (patched fTcp 46 0x60)))
      (fun t => t.engine.failure == some (.invalidHeaderLength, .tcp)) = true := by decide

/-- W2: the UDP header is exactly the next 8 bytes. -/
theorem test_dispatchUdp_payload :
    answers (exec .dispatchUdp (atTransport fUdp)) (fun t => t.engine.poff == 42 && t.engine.plen == 2) = true := by
  decide

/-- T-DSP-9: an empty transport region is legal. -/
theorem test_dispatchUnknown_empty :
    answers (exec (.dispatchUnknown 1#8) (atTransport (fIcmp.take 34))) (fun t =>
      t.engine.transport == some (.unknown 1#8) && t.engine.poff == 34 && t.engine.plen == 0) = true := by decide

/-! ### Single steps: the host (§3.7, §3.8) -/

/-- T-H-1, and T-H-24 while BUSY. -/
theorem test_bufWr8 :
    answers (exec (.bufWr8 0x002A#16 0x01#8) State.reset) (fun t => t.fb == [(42, 0x01#8)]) = true ∧
    answers (exec (.bufWr8 0x0000#16 0xFF#8) (busyLen 0)) (fun t => t == busyLen 0) = true := by decide

/-- T-H-3: little-endian lanes, address bits 1:0 ignored. -/
theorem test_bufWr32 :
    answers (exec (.bufWr32 0x0002#16 0xAABBCCDD#32) State.reset)
      (fun t => t.fb == [(0, 0xDD#8), (1, 0xCC#8), (2, 0xBB#8), (3, 0xAA#8)]) = true := by decide

/-- T-H-5 and T-H-4, on the buffer T-H-3 leaves. -/
theorem test_bufRd :
    answers (exec (.bufRd8 0x0001#16) (busyWith [0xDD, 0xCC, 0xBB, 0xAA])) (fun t => t.rdata == 0x000000CC#32) = true ∧
    answers (exec (.bufRd32 0x0003#16) (busyWith [0xDD, 0xCC, 0xBB, 0xAA])) (fun t => t.rdata == 0xAABBCCDD#32) = true
    := by decide

/-- T-H-23. -/
theorem test_refused_sizes :
    refuses (exec (.halfRefused true 0x0000#16) State.reset) .badSize = true ∧
    refuses (exec (.size11Refused true 0x0004#16) State.reset) .badSize = true := by decide

/-- T-H-19, T-H-20. -/
theorem test_regByte :
    answers (exec (.regByteRd 0x1004#16) { doneFailed with rdata := 7 }) (fun t => t.rdata == 0#32) = true ∧
    answers (exec (.regByteWr 0x1000#16 0x01#8) State.reset) (fun t => t == State.reset) = true := by decide

/-- T-R-3, T-R-2: SRST from BUSY, FB kept. -/
theorem test_ctrlSrst :
    answers (exec .ctrlSrst { busyWith fUdp with irqEn := true, ts := 5 }) (fun t =>
      t.statusWord == 0#32 && t.ctrlWord == 0#32 && t.frameLen == 0#16 && t.ts == 0#64 &&
      Memory.read t.fb 42 == some 0x01#8) = true := by decide

/-- T-H-10 (LEN = MAX_FRAME is accepted), T-H-9 (refused). -/
theorem test_ctrlStart :
    answers (exec (.ctrlStart false) { State.reset with frameLen := 0x800#16 }) (fun t => t.statusWord == 0x001#32) = true
    ∧ refuses (exec (.ctrlStart false) { State.reset with frameLen := 0xFFFF#16 }) .frameTooLong = true := by decide

/-- T-H-25, T-H-26: while BUSY only IRQ_EN is written. -/
theorem test_ctrlStart_busy :
    answers (exec (.ctrlStart true) (busyLen 9)) (fun t => t == { busyLen 9 with irqEn := true }) = true ∧
    answers (exec (.ctrlStart false) { busyLen 9 with irqEn := true }) (fun t => t == busyLen 9) = true := by decide

/-- T-H-29, T-H-7. -/
theorem test_ctrlWr :
    answers (exec (.ctrlWr true) doneFailed) (fun t => t.irq) = true ∧
    answers (exec (.ctrlWr true) State.reset) (fun t => !t.irq && t.irqEn) = true := by decide

/-- T-H-7: CTRL reads IRQ_EN in bit 2. -/
theorem test_ctrlRd :
    answers (exec .ctrlRd { State.reset with irqEn := true }) (fun t => t.rdata == 0x00000004#32) = true := by decide

/-- T-H-11 (0x112), T-H-15 (the write is ignored). -/
theorem test_status :
    answers (exec .statusRd doneFailed) (fun t => t.rdata == 0x112#32) = true ∧
    answers (exec (.statusWr 0x6#32) doneFailed) (fun t => t == doneFailed) = true := by decide

/-- T-H-8. -/
theorem test_len :
    answers (exec (.lenWr 0xFFFF#16) State.reset) (fun t => t.frameLen == 0xFFFF#16) = true ∧
    answers (exec .lenRd { State.reset with frameLen := 0xFFFF#16 }) (fun t => t.rdata == 0x0000FFFF#32) = true := by
  decide

/-- T-H-14, the writes. -/
theorem test_ts_writes :
    answers (exec (.tsLoWr 0x89ABCDEF#32) { State.reset with ts := 0xFFFFFFFF00000000#64 })
      (fun t => t.ts == 0xFFFFFFFF89ABCDEF#64) = true ∧
    answers (exec (.tsHiWr 0x01234567#32) { State.reset with ts := 0x89ABCDEF#64 })
      (fun t => t.ts == 0x0123456789ABCDEF#64) = true := by decide

/-- T-H-14, the reads. -/
theorem test_ts_reads :
    answers (exec .tsLoRd { State.reset with ts := 0x0123456789ABCDEF#64 }) (fun t => t.rdata == 0x89ABCDEF#32) = true ∧
    answers (exec .tsHiRd { State.reset with ts := 0x0123456789ABCDEF#64 }) (fun t => t.rdata == 0x01234567#32) = true
    := by decide

/-- The result fields of F_TCP as §3.6 lists its registers, RES_TS as in the F_UDP column. -/
def tcpDone : State :=
  { State.reset with
    phase := .done, ok := true,
    results :=
      { resTs := 0x0123456789ABCDEF, dstMac := 0x001122334455, srcMac := 0x66778899AABB, ipVer := 4, ipIhl := 5,
        ipProto := 6, ipHlen := 20, srcIp := 0x0A000001, dstIp := 0x0A000002, l4Kind := .tcp, unkProto := 0,
        l4Hlen := 20, tcpDoff := 5, srcPort := 1234, dstPort := 80, tcpSeq := 1, tcpAck := 0, udpLen := 0,
        udpCsum := 0, l4Off := 34, payloadOff := 54, payloadLen := 3 } }

/-- The F_TCP column of §3.6, the first eight registers. -/
theorem test_result_reads_low :
    answers (exec .resTsLoRd tcpDone) (fun t => t.rdata == 0x89ABCDEF#32) = true ∧
    answers (exec .resTsHiRd tcpDone) (fun t => t.rdata == 0x01234567#32) = true ∧
    answers (exec .dstMacHiRd tcpDone) (fun t => t.rdata == 0x00000011#32) = true ∧
    answers (exec .dstMacLoRd tcpDone) (fun t => t.rdata == 0x22334455#32) = true ∧
    answers (exec .srcMacHiRd tcpDone) (fun t => t.rdata == 0x00006677#32) = true ∧
    answers (exec .srcMacLoRd tcpDone) (fun t => t.rdata == 0x8899AABB#32) = true ∧
    answers (exec .ipInfoRd tcpDone) (fun t => t.rdata == 0x00140645#32) = true ∧
    answers (exec .srcIpRd tcpDone) (fun t => t.rdata == 0x0A000001#32) = true := by decide

/-- The F_TCP column of §3.6, the last eight registers. -/
theorem test_result_reads_high :
    answers (exec .dstIpRd tcpDone) (fun t => t.rdata == 0x0A000002#32) = true ∧
    answers (exec .l4InfoRd tcpDone) (fun t => t.rdata == 0x05140001#32) = true ∧
    answers (exec .portsRd tcpDone) (fun t => t.rdata == 0x04D20050#32) = true ∧
    answers (exec .tcpSeqRd tcpDone) (fun t => t.rdata == 0x1#32) = true ∧
    answers (exec .tcpAckRd tcpDone) (fun t => t.rdata == 0x0#32) = true ∧
    answers (exec .udpLenCsumRd tcpDone) (fun t => t.rdata == 0x0#32) = true ∧
    answers (exec .region0Rd tcpDone) (fun t => t.rdata == 0x00360022#32) = true ∧
    answers (exec .region1Rd tcpDone) (fun t => t.rdata == 0x3#32) = true := by decide

/-- T-H-16, T-H-18: writes to read-only and reserved registers. -/
theorem test_ignored_writes :
    answers (exec (.resWrLow 0x1020#16 0#32) tcpDone) (fun t => t == tcpDone) = true ∧
    answers (exec (.resWrHigh 0x1048#16 0#32) tcpDone) (fun t => t == tcpDone) = true ∧
    answers (exec (.rsvdWr 0x1018#16 0xFFFFFFFF#32) State.reset) (fun t => t == State.reset) = true := by decide

/-- T-H-17, T-H-21, T-H-22: reserved and unmapped addresses. -/
theorem test_inert_accesses :
    answers (exec (.rsvdRd 0x107C#16) { tcpDone with rdata := 9 }) (fun t => t.rdata == 0#32) = true ∧
    answers (exec (.unmappedRd .byte 0x0800#16) { tcpDone with rdata := 9 }) (fun t => t.rdata == 0#32) = true ∧
    answers (exec (.unmappedWr .word 0x2000#16 0x1#32) tcpDone) (fun t => t == tcpDone) = true := by decide

/-- T-R-4: hardware reset while BUSY. -/
theorem test_hardwareReset :
    answers (step { busyWith fUdp with inputs := [.hardwareReset] })
      (fun t => t == State.reset) = true := by decide

/-- The step runs the word that withFetchWord places (log 2): LEN = 0 while BUSY is T-H-11's 0x112. -/
theorem test_withFetchWord :
    answers (step ((busyLen 0).withFetchWord 24 0x41004)) (fun t => t.rdata == 0x001#32) = true ∧
    answers (step ((busyLen 0).withFetchWord 0 0)) (fun t => t.statusWord == 0x112#32) = true := by decide

/-- R83: WAITDONE in IDLE is one read, and while BUSY it goes on until the poll after the completion (T-H-11). -/
theorem test_waitDone :
    answers (waitDone [] State.reset) (fun t => t.rdata == 0x000#32 && t.phase == .idle) = true ∧
    answers (waitDone [[], [engineEvent], [.hardwareReset]] (busyLen 0)) (fun t => t.rdata == 0x112#32) = true ∧
    answers (waitDone [] (busyLen 0)) (fun t => t.rdata == 0x112#32) = true := by decide

/-- W5: for F_TCP the transport region is [34, 57). -/
theorem test_transportRegion :
    ({ tcpDone with frameLen := 57 } : State).transportRegionView = ⟨34, 23⟩ := by decide

/-- R9: one instance by default, MAX_FRAME = 2048; three instances with MAX_FRAME = 64. -/
theorem test_platformParams :
    ((Platform.reset PlatformParams.default).instances.map fun s => s.params.maxFrame) = [2048] ∧
    ((Platform.reset ⟨0, 2⟩).instances.map fun s => s.params.maxFrame) = [64, 64, 64] := by decide

/-! ### Witnesses: what meets the hypotheses of each statement, clause by clause at boundary values -/

theorem witness_DecodeEncodeRoundTrip :
    Instr.wellFormed Params.default (.bufRd8 0x07FF#16) = true ∧
    Instr.wellFormed Params.default (.unmappedRd .byte 0x0800#16) = true ∧
    Instr.wellFormed Params.default (.regByteRd 0x107F#16) = true ∧
    Instr.wellFormed Params.default (.rsvdWr 0x1060#16 5#32) = true ∧
    Instr.wellFormed Params.default (.resWrLow 0x103F#16 5#32) = true ∧
    Instr.wellFormed Params.default (.dispatchUnknown 0xFF#8) = true := by decide

theorem witness_ProtocolByteSelectsDispatch :
    (6#8).toNat = 6 ∧ (17#8).toNat = 17 ∧ (16#8).toNat ≠ 6 ∧ (16#8).toNat ≠ 17 ∧ (18#8).toNat ≠ 17 ∧
    (5#8).toNat ≠ 6 ∧ (255#8).toNat ≠ 17 := by decide

/-- A STATUS read as the next event. -/
def aboutToRead : State := { State.reset with inputs := [.op (.ht 0x41004#19 0#32)] }

theorem witness_StepRunsDecodedInstruction :
    aboutToRead.inputs = .op (.ht 0x41004#19 0#32) :: [] ∧
    decode aboutToRead.params (.ht 0x41004#19 0#32) = .ok .statusRd := by decide

theorem witness_StepWithNothingLeft :
    (busyLen 0).inputs = [] ∧ (busyLen 0).phase = .busy ∧ State.reset.inputs = [] ∧ State.reset.phase ≠ .busy := by
  decide

theorem witness_RunWithoutRefusalEnds :
    (∃ t, runSteps (aboutToRead.inputs.length + 1) aboutToRead = .next t) ∧
    (∃ t, runSteps ((busyLen 0).inputs.length + 1) (busyLen 0) = .next t) := ⟨⟨_, rfl⟩, ⟨_, rfl⟩⟩

/-- Both sides of the equivalence are met, and both fail. -/
theorem witness_StepCompletesExactlyOnKeptDuties :
    DutyKept State.reset .hardwareReset ∧ DutyKept (busyLen 0) (.op (.engine .complete)) ∧
    DutyKept (busyLen 0xFFFF) (.op (.ht 0x51000#19 0x1#32)) ∧
    ¬DutyKept State.reset (.op (.engine .complete)) ∧ ¬DutyKept State.reset (.op (.ht 0x21000#19 0#32)) ∧
    ¬DutyKept { State.reset with frameLen := 0x801#16 } (.op (.ht 0x51000#19 0x1#32)) := by
  simp only [DutyKept, isStart]; decide

theorem witness_ResetStateIsAsStated :
    (0x0000#16).toNat < State.reset.params.maxFrame ∧ (0x07FF#16).toNat < State.reset.params.maxFrame := by decide

/-- Hardware reset while BUSY, then a STATUS read. -/
def aboutToReset : State :=
  { busyWith fUdp with inputs := [.hardwareReset, .op (.ht 0x41004#19 0#32)] }

theorem witness_HardwareResetFromAnyState :
    aboutToReset.inputs = .hardwareReset :: .op (.ht 0x41004#19 0#32) :: [] ∧ aboutToReset.phase = .busy ∧
    selSize 0x41004#19 ≠ 0b01#2 ∧ selSize 0x41004#19 ≠ 0b11#2 := by decide

theorem witness_SoftResetKeepsFrameBuffer :
    (0x51003#19 &&& 0x7FFFC#19 = 0x51000#19 ∧ (0x7#32 &&& 0x2#32) = 0x2#32) ∧
    (0x51000#19 &&& 0x7FFFC#19 = 0x51000#19 ∧ (0x2#32 &&& 0x2#32) = 0x2#32) := by decide

theorem witness_BufferByteWriteStoresOneByte :
    selSize 0x107FF#19 = 0b00#2 ∧ selWe 0x107FF#19 = true ∧
    (selAddr 0x107FF#19).toNat < State.reset.params.maxFrame ∧ State.reset.phase ≠ .busy ∧
    (busyLen 0).phase = .busy := by decide

theorem witness_BufferWordWriteStoresFourLanes :
    selSize 0x507FF#19 = 0b10#2 ∧ selWe 0x507FF#19 = true ∧
    (selAddr 0x507FF#19).toNat < State.reset.params.maxFrame ∧ State.reset.phase ≠ .busy ∧
    (busyLen 0).phase = .busy ∧ (selAddr 0x507FF#19 &&& 0xFFFC#16).toNat = 0x7FC := by decide

theorem witness_BufferByteReadReturnsByte :
    selSize 0x0002B#19 = 0b00#2 ∧ selWe 0x0002B#19 = false ∧
    (selAddr 0x0002B#19).toNat < (busyWith fUdp).params.maxFrame ∧
    Memory.read (busyWith fUdp).fb (selAddr 0x0002B#19).toNat = some 0x02#8 ∧
    Memory.read State.reset.fb (selAddr 0x0002B#19).toNat = none := by decide

theorem witness_BufferWordReadReturnsFourBytes :
    selSize 0x407FF#19 = 0b10#2 ∧ selWe 0x407FF#19 = false ∧
    (selAddr 0x407FF#19).toNat < State.reset.params.maxFrame ∧
    Memory.read { State.reset with fb := [(0x7FE, 0x5A#8)] }.fb
      ((selAddr 0x407FF#19 &&& 0xFFFC#16).toNat + 2) = some 0x5A#8 ∧
    Memory.read { State.reset with fb := [(0x7FE, 0x5A#8)] }.fb
      ((selAddr 0x407FF#19 &&& 0xFFFC#16).toNat + 3) = none := by decide

theorem witness_OnlyHostWritesChangeFrameBuffer :
    (∃ t, exec .engineComplete (busyWith fUdp) = .next t) ∧ (∀ a v, Instr.engineComplete ≠ .bufWr8 a v) ∧
    (∀ a v, Instr.engineComplete ≠ .bufWr32 a v) := ⟨⟨_, rfl⟩, nofun, nofun⟩

theorem witness_CtrlWriteAndRead :
    0x51001#19 &&& 0x7FFFC#19 = 0x51000#19 ∧ (0xFFFFFFFC#32 &&& 0x3#32) = 0x0#32 ∧
    0x41003#19 &&& 0x7FFFC#19 = 0x41000#19 := by decide

theorem witness_StartBeginsDecode :
    0x51000#19 &&& 0x7FFFC#19 = 0x51000#19 ∧ (0xFFFFFFFD#32 &&& 0x3#32) = 0x1#32 ∧
    (busyLen 0xFFFF).phase = .busy ∧
    ({ State.reset with frameLen := 0x801#16 }.phase ≠ .busy ∧
      { State.reset with frameLen := 0x801#16 }.params.maxFrame <
        { State.reset with frameLen := 0x801#16 }.frameLen.toNat) ∧
    ({ doneFailed with frameLen := 0x800#16 }.phase ≠ .busy ∧
      { doneFailed with frameLen := 0x800#16 }.frameLen.toNat ≤
        { doneFailed with frameLen := 0x800#16 }.params.maxFrame) ∧
    (State.reset.frameLen = 0 ∧ State.reset.frameLen.toNat ≤ State.reset.params.maxFrame) := by decide

/-- A BUSY block with LEN = MAX_FRAME meets the invariant. -/
theorem inv_busyFull : Inv (busyLen 0x800#16) where
  memory := by decide
  buffer := by decide
  status := by decide
  noResult := fun _ => rfl
  result := nofun
  frameFits := fun _ => by decide

/-- A block with a published TCP result meets the invariant. -/
theorem inv_tcpDone : Inv tcpDone where
  memory := by decide
  buffer := by decide
  status := by decide
  noResult := fun h => absurd ⟨rfl, rfl⟩ h
  result := fun _ _ => ⟨by simp only [TaggedUnion, tcpDone]; decide, by decide, by decide, by decide, by decide, by decide⟩
  frameFits := nofun

theorem witness_StatusReadReturnsFields :
    0x41007#19 &&& 0x7FFFC#19 = 0x41004#19 ∧ Inv tcpDone ∧ Inv (busyLen 0x800#16) :=
  ⟨by decide, inv_tcpDone, inv_busyFull⟩

theorem witness_FrameLengthWriteAndRead :
    0x5100B#19 &&& 0x7FFFC#19 = 0x51008#19 ∧ 0x4100B#19 &&& 0x7FFFC#19 = 0x41008#19 ∧
    (busyLen 0).phase = .busy ∧ State.reset.phase ≠ .busy := by decide

theorem witness_TimestampWriteAndRead :
    0x5100F#19 &&& 0x7FFFC#19 = 0x5100C#19 ∧ 0x51013#19 &&& 0x7FFFC#19 = 0x51010#19 ∧
    0x4100F#19 &&& 0x7FFFC#19 = 0x4100C#19 ∧ 0x41013#19 &&& 0x7FFFC#19 = 0x41010#19 ∧
    (busyLen 0).phase = .busy ∧ State.reset.phase ≠ .busy := by decide

/-- DONE with the interrupt up. -/
def doneIrq : State := { doneFailed with irqEn := true }

/-- The rises, by completion and by enabling; the falls, by START, SRST, CTRL_WR and hardware reset. -/
theorem witness_InterruptRisesAndFalls :
    ((busyLen 0).irq = false ∧
      answers (exec .engineComplete { busyLen 0 with irqEn := true }) (fun t => t.irq) = true) ∧
    (doneFailed.irq = false ∧ answers (exec (.ctrlWr true) doneFailed) (fun t => t.irq) = true) ∧
    (doneIrq.irq = true ∧ answers (exec (.ctrlStart true) doneIrq) (fun t => !t.irq) = true) ∧
    answers (exec .ctrlSrst doneIrq) (fun t => !t.irq) = true ∧
    answers (exec (.ctrlWr false) doneIrq) (fun t => !t.irq) = true ∧
    answers (step { doneIrq with inputs := [.hardwareReset] }) (fun t => !t.irq) = true := by decide

theorem witness_StateTransitionsAreTheListed :
    answers (exec (.ctrlStart false) (busyLen 0)) (fun t => t.phase == .busy) = true ∧
    answers (exec (.ctrlStart false) doneFailed) (fun t => t.phase == .busy) = true ∧
    answers (exec .engineComplete (busyLen 0)) (fun t => t.phase == .done) = true ∧
    answers (exec .ctrlSrst (busyLen 0)) (fun t => t.phase == .idle) = true ∧
    answers (step { busyLen 0 with inputs := [.hardwareReset] }) (fun t => t.phase == .idle) = true := by decide

/-- Each writer answers, a decode of each outcome included, and so does an operation that writes none of the fields. -/
theorem witness_StatusWritersAreTheListed :
    answers (exec .ctrlSrst tcpDone) (fun t => !t.ok) = true ∧
    (State.reset.phase ≠ .busy ∧ answers (exec (.ctrlStart true) State.reset) (fun t => t.phase == .busy) = true) ∧
    answers (exec .engineComplete (busyWith fTcp)) (fun t => t.ok) = true ∧
    answers (exec .engineComplete (busyWith fIhl15)) (fun t => !t.ok) = true ∧
    answers (exec (.ctrlStart true) (busyLen 0)) (fun t => t.irqEn) = true ∧
    answers (exec .statusRd tcpDone) (fun t => t.ok) = true ∧
    answers (step { tcpDone with inputs := [.hardwareReset] }) (fun t => !t.ok) = true := by decide

/-- The clearing writers from DONE with a result, a completion from BUSY, and a read that keeps the result. -/
theorem witness_ResultsLastUntilStartOrReset :
    (tcpDone.phase ≠ .busy ∧
      answers (exec (.ctrlStart false) tcpDone) (fun t => t.results == Results.cleared) = true) ∧
    answers (exec .ctrlSrst tcpDone) (fun t => t.results == Results.cleared) = true ∧
    answers (exec .engineComplete (busyWith fUdp)) (fun t => t.results != Results.cleared) = true ∧
    answers (exec (.bufWr8 0x0000#16 0xFF#8) tcpDone) (fun t => t.results != Results.cleared) = true ∧
    answers (step { tcpDone with inputs := [.hardwareReset] }) (fun t => t.results == Results.cleared) = true := by
  decide

theorem witness_InputsFrozenWhileBusy :
    (busyWith fUdp).phase = .busy ∧ (∃ t, exec .engineComplete (busyWith fUdp) = .next t) ∧
    Instr.engineComplete ≠ .ctrlSrst := ⟨rfl, ⟨_, rfl⟩, nofun⟩

theorem witness_ReadsHaveNoSideEffect :
    isHostRead (.bufRd32 0x0002#16) = true ∧ isHostRead .region1Rd = true ∧
    isHostRead (.unmappedRd .word 0xFFFF#16) = true := by decide

theorem witness_WritesAreIdempotent :
    Instr.bufWr32 0x07FF#16 1#32 ∈ [Instr.bufWr8 0#16 0#8, .bufWr32 0x07FF#16 1#32, .lenWr 3#16, .tsLoWr 1#32,
      .tsHiWr 1#32, .ctrlSrst] := by decide

theorem witness_ResultsReadZeroWhileBusy :
    Inv (busyLen 0x800#16) ∧ (busyLen 0x800#16).phase = .busy ∧
    Instr.region1Rd ∈ [Instr.resTsLoRd, .resTsHiRd, .dstMacHiRd, .dstMacLoRd, .srcMacHiRd, .srcMacLoRd, .ipInfoRd,
      .srcIpRd, .dstIpRd, .l4InfoRd, .portsRd, .tcpSeqRd, .tcpAckRd, .udpLenCsumRd, .region0Rd, .region1Rd] :=
  ⟨inv_busyFull, rfl, by decide⟩

theorem witness_ReadOnlyRegisterWritesAreIgnored :
    0x51007#19 &&& 0x7FFFC#19 = 0x51004#19 ∧ 0x51020#19 &&& 0x7FFE0#19 = 0x51020#19 ∧
    0x5103F#19 &&& 0x7FFE0#19 = 0x51020#19 ∧ 0x51040#19 &&& 0x7FFE0#19 = 0x51040#19 ∧
    0x5105F#19 &&& 0x7FFE0#19 = 0x51040#19 := by decide

/-- The ends of the reserved ranges, and the addresses next to the buffer and to the register window; no address is both
reserved and unmapped. -/
theorem witness_ReservedAndUnmappedAccessesAreInert :
    (selSize 0x41014#19 = 0b10#2 ∧ selWe 0x41014#19 = false ∧ 0x1014 ≤ (selAddr 0x41014#19).toNat ∧
      (selAddr 0x4101F#19).toNat < 0x1020) ∧
    (selSize 0x5107F#19 = 0b10#2 ∧ selWe 0x5107F#19 = true ∧ 0x1060 ≤ (selAddr 0x5107F#19).toNat ∧
      (selAddr 0x5107F#19).toNat < 0x1080) ∧
    (selSize 0x00800#19 ≠ 0b01#2 ∧ selSize 0x00800#19 ≠ 0b11#2 ∧ selWe 0x00800#19 = false ∧
      State.reset.params.maxFrame ≤ (selAddr 0x00800#19).toNat ∧ (selAddr 0x00800#19).toNat < 0x1000) ∧
    (selSize 0x51080#19 ≠ 0b01#2 ∧ selSize 0x51080#19 ≠ 0b11#2 ∧ selWe 0x51080#19 = true ∧
      State.reset.params.maxFrame ≤ (selAddr 0x51080#19).toNat ∧ 0x1080 ≤ (selAddr 0x51080#19).toNat) := by decide

theorem witness_RegisterByteAccessesAreInert :
    0x01000#19 &&& 0x7FF80#19 = 0x01000#19 ∧ 0x0107F#19 &&& 0x7FF80#19 = 0x01000#19 ∧
    0x11000#19 &&& 0x7FF80#19 = 0x11000#19 ∧ 0x1107F#19 &&& 0x7FF80#19 = 0x11000#19 := by decide

theorem witness_OddSizesAreRefused :
    selSize 0x20000#19 = 0b01#2 ∧ selSize 0x3FFFF#19 = 0b01#2 ∧ selSize 0x60000#19 = 0b11#2 ∧
    selSize 0x7FFFF#19 = 0b11#2 := by decide

/-! #### Frames for the codecs -/

/-- ByteAt of a list of bytes. -/
def bytesOf (frame : List Byte) (i : Nat) : Byte := frame.getD i 0

theorem witness_EthernetCodec : 13 < 14 ∧ 14 ≤ 14 := by decide

theorem witness_Ipv4Codec :
    19 < 20 ∧
    (20 ≤ 20 ∧ frameIhl (bytesOf (patched fUdp 14 0x44)) < 5) ∧
    (20 ≤ 23 ∧ 23 < 4 * frameIhl (bytesOf (patched fUdp 14 0x46))) ∧
    (20 ≤ 20 ∧ 5 ≤ frameIhl (bytesOf fUdp) ∧ 4 * frameIhl (bytesOf fUdp) ≤ 20) ∧
    (20 ≤ 60 ∧ 5 ≤ frameIhl (bytesOf fIhl15) ∧ 4 * frameIhl (bytesOf fIhl15) ≤ 60) := by decide

theorem witness_TcpCodec :
    19 < 20 ∧
    (20 ≤ 23 ∧ tcpDataOffset (bytesOf (patched fTcp 46 0x40)) 34 < 5) ∧
    (20 ≤ 23 ∧ 23 < 4 * tcpDataOffset (bytesOf (patched fTcp 46 0x60)) 34) ∧
    (20 ≤ 20 ∧ 5 ≤ tcpDataOffset (bytesOf fTcp) 34 ∧ 4 * tcpDataOffset (bytesOf fTcp) 34 ≤ 20) ∧
    (20 ≤ 60 ∧ 5 ≤ tcpDataOffset (bytesOf (patched fTcp 46 0xF0)) 34 ∧
      4 * tcpDataOffset (bytesOf (patched fTcp 46 0xF0)) 34 ≤ 60) := by decide

theorem witness_UdpCodec : 7 < 8 ∧ 8 ≤ 8 := by decide

/-- Two readings of F_UDP that agree on the frame and differ at byte 44. -/
theorem witness_NoByteReadPastFrame :
    (∀ i, i < 44 → bytesOf fUdp i = bytesOf (fUdp ++ [0xFF]) i) ∧ bytesOf fUdp 44 ≠ bytesOf (fUdp ++ [0xFF]) 44 ∧
    (∀ i, i ≤ 11 → bytesOf fUdp i = bytesOf (patched fUdp 12 0x81) i) ∧
    (∀ i, i ≤ 33 → bytesOf fUdp i = bytesOf (patched fUdp 34 0xFF) i) ∧
    (∀ i, i ≤ 34 + 12 → bytesOf fTcp i = bytesOf (patched fTcp 47 0xFF) i) ∧
    (∀ i, i ≤ 34 + 7 → bytesOf fUdp i = bytesOf (patched fUdp 42 0xFF) i) ∧
    13 < 14 ∧ 33 - 14 < 20 ∧ 53 - 34 < 20 ∧ 41 - 34 < 8 := by decide

/-- T-ETH-6: F_UDP and F_TCP, each with a byte changed that no codec reads. -/
theorem witness_UnreadBytesDoNotMatter :
    ((∀ i, i ≤ 11 → bytesOf fUdp i = bytesOf (patched fUdp 12 0x81) i) ∧
      bytesOf fUdp 14 = bytesOf (patched fUdp 12 0x81) 14 ∧ bytesOf fUdp 23 = bytesOf (patched fUdp 12 0x81) 23 ∧
      (∀ i, i ≤ 33 → 26 ≤ i → bytesOf fUdp i = bytesOf (patched fUdp 12 0x81) i) ∧ bytesOf fUdp 23 = 17#8 ∧
      (∀ i, i < 8 → bytesOf fUdp (frameL4 (bytesOf fUdp) + i) =
        bytesOf (patched fUdp 12 0x81) (frameL4 (bytesOf fUdp) + i)) ∧
      bytesOf fUdp 12 ≠ bytesOf (patched fUdp 12 0x81) 12) ∧
    (bytesOf fTcp 23 = 6#8 ∧
      (∀ i, i < 12 → bytesOf fTcp (frameL4 (bytesOf fTcp) + i) =
        bytesOf (patched fTcp 46 0x5F) (frameL4 (bytesOf fTcp) + i)) ∧
      tcpDataOffset (bytesOf fTcp) (frameL4 (bytesOf fTcp)) =
        tcpDataOffset (bytesOf (patched fTcp 46 0x5F)) (frameL4 (bytesOf fTcp)) ∧
      bytesOf fTcp 46 ≠ bytesOf (patched fTcp 46 0x5F) 46) := by decide

/-- The outcome of a decode is a packet that meets a check. -/
def decodes (r : Result Packet) (check : Packet → Bool) : Bool :=
  match r with
  | .ok p => check p
  | .fail _ _ => false

/-- A packet exists when a check of it holds. -/
theorem exists_packet {r : Result Packet} {check : Packet → Bool} (h : decodes r check = true) :
    ∃ p, r = .ok p ∧ check p = true := by
  cases r with
  | ok p => exact ⟨p, rfl, h⟩
  | fail k l => cases h

/-- A frame of each transport decodes. -/
theorem witness_DecodeArithmeticInRange :
    (Inv (busyLen 0x800#16) ∧ (busyLen 0x800#16).phase = .busy) ∧
    (∃ p, decodeFrame (bytesOf fTcp) 57 0 = .ok p ∧ (p.transport.hlen == 20 && p.poff == 54) = true) ∧
    (∃ p, decodeFrame (bytesOf fUdp) 44 0 = .ok p ∧ (p.transport.hlen == 8 && p.poff == 42) = true) ∧
    (∃ p, decodeFrame (bytesOf fIcmp) 34 0 = .ok p ∧ (p.transport == .unknown 1 && p.poff == 34) = true) :=
  ⟨⟨inv_busyFull, rfl⟩, exists_packet (by decide), exists_packet (by decide), exists_packet (by decide)⟩

/-- Each layer fails somewhere and passes somewhere, and each protocol class occurs. -/
theorem witness_DecodeSequencesLayers :
    decEth (bytesOf fUdp) 13 = .fail .truncatedFrame .eth ∧
    decEth (bytesOf fUdp) 14 = .ok ⟨0x001122334455#48, 0x66778899AABB#48⟩ ∧
    decIpv4 (bytesOf fUdp) 19 = .fail .truncatedFrame .ipv4 ∧
    decIpv4 (bytesOf fUdp) 20 = .ok ⟨4, 5, 20, 17, 0xC0A80001#32, 0xC0A80002#32⟩ ∧
    decIpv4 (bytesOf fTcp) 43 = .ok ⟨4, 5, 20, 6, 0x0A000001#32, 0x0A000002#32⟩ ∧
    decIpv4 (bytesOf fIcmp) 28 = .ok ⟨4, 5, 20, 1, 0xC0A80001#32, 0xC0A80002#32⟩ ∧
    decTcp (bytesOf fTcp) 34 19 = .fail .truncatedFrame .tcp ∧
    decTcp (bytesOf fTcp) 34 20 = .ok ⟨1234, 80, 1, 0, 5, 20⟩ ∧
    decUdp (bytesOf fUdp) 34 7 = .fail .truncatedFrame .udp ∧
    decUdp (bytesOf fUdp) 34 8 = .ok ⟨5353, 53, 10, 0⟩ := by decide

/-! #### ENGINE_COMPLETE -/

/-- A block that is not BUSY, a failing decode, and a successful decode of each transport. -/
theorem witness_EngineCompletePublishesDecode :
    State.reset.phase ≠ .busy ∧ (busyWith fUdp).phase = .busy ∧
    decodeFrame (busyWith fIhl15).byteAt (busyWith fIhl15).frameLen.toNat 0 = .fail .invalidHeaderLength .ipv4 ∧
    decodes (decodeFrame (busyWith fTcp).byteAt (busyWith fTcp).frameLen.toNat 0)
      (fun p => p.transport == .tcp ⟨1234, 80, 1, 0, 5, 20⟩) = true ∧
    decodes (decodeFrame (busyWith fUdp).byteAt (busyWith fUdp).frameLen.toNat 0)
      (fun p => p.transport == .udp ⟨5353, 53, 10, 0⟩) = true ∧
    decodes (decodeFrame (busyWith fIcmp).byteAt (busyWith fIcmp).frameLen.toNat 0)
      (fun p => p.transport == .unknown 1) = true := by decide

/-- Each of the six rows of the table, at its boundary, and a frame that no row covers. -/
theorem witness_FailureTableIsExact :
    (busyWith (fUdp.take 13)).phase = .busy ∧
    FailsWith (busyWith (fUdp.take 13)).byteAt 13 .truncatedFrame .eth ∧
    FailsWith (busyWith (fUdp.take 33)).byteAt 33 .truncatedFrame .ipv4 ∧
    FailsWith (busyWith fIhl15).byteAt 44 .invalidHeaderLength .ipv4 ∧
    FailsWith (busyWith (fTcp.take 53)).byteAt 53 .truncatedFrame .tcp ∧
    FailsWith (busyWith (patched fTcp 46 0x60)).byteAt 57 .invalidHeaderLength .tcp ∧
    FailsWith (busyWith (fUdp.take 41)).byteAt 41 .truncatedFrame .udp ∧
    (∀ k l, ¬FailsWith (busyWith (fIcmp.take 34)).byteAt 34 k l) := by
  refine ⟨rfl, ?_, ?_, ?_, ?_, ?_, ?_, ?_⟩ <;> try simp only [FailsWith, IpHeaderFits]; decide
  intro k l
  cases k <;> cases l <;> simp only [FailsWith, IpHeaderFits] <;> decide

theorem witness_SuccessPublishesLinkAndNetworkBytes :
    (busyWith fTcp).phase = .busy ∧
    ∀ k l, ¬FailsWith (busyWith fTcp).byteAt (busyWith fTcp).frameLen.toNat k l := by
  refine ⟨rfl, fun k l => ?_⟩
  cases k <;> cases l <;> simp only [FailsWith, IpHeaderFits] <;> decide

/-- Each protocol class. -/
theorem witness_SuccessPublishesTransportBytes :
    ((busyWith fTcp).byteAt 23 = 6#8 ∧
      ∀ k l, ¬FailsWith (busyWith fTcp).byteAt (busyWith fTcp).frameLen.toNat k l) ∧
    ((busyWith fUdp).byteAt 23 = 17#8 ∧
      ∀ k l, ¬FailsWith (busyWith fUdp).byteAt (busyWith fUdp).frameLen.toNat k l) ∧
    ((busyWith fIcmp).byteAt 23 = 1#8 ∧
      ∀ k l, ¬FailsWith (busyWith fIcmp).byteAt (busyWith fIcmp).frameLen.toNat k l) := by
  refine ⟨⟨by decide, fun k l => ?_⟩, ⟨by decide, fun k l => ?_⟩, ⟨by decide, fun k l => ?_⟩⟩ <;>
    cases k <;> cases l <;> simp only [FailsWith, IpHeaderFits] <;> decide

/-- The same frame in two buffers that differ past it. -/
theorem witness_ResultDependsOnlyOnFrameAndTimestamp :
    (busyWith fUdp).phase = .busy ∧ (busyWith fUdp).frameLen = 44#16 ∧
    busyWith fUdp ≠ { busyWith (fUdp ++ [0xFF]) with frameLen := 44#16 } ∧
    ∀ i, i < (busyWith fUdp).frameLen.toNat → ∃ v, Memory.read (busyWith fUdp).fb i = some v ∧
      Memory.read { busyWith (fUdp ++ [0xFF]) with frameLen := 44#16 }.fb i = some v := by
  have same : ∀ i, i < (busyWith fUdp).frameLen.toNat →
      Memory.read (busyWith fUdp).fb i = some (bytesOf fUdp i) ∧
      Memory.read { busyWith (fUdp ++ [0xFF]) with frameLen := 44#16 }.fb i = some (bytesOf fUdp i) := by decide
  exact ⟨rfl, rfl, by decide, fun i h => ⟨_, same i h⟩⟩

theorem witness_ViewsTileTheFrame :
    (busyWith fUdp).phase = .busy ∧
    (∃ t, exec .engineComplete (busyWith fUdp) = .next t ∧ t.ok = true) ∧
    (∃ t, exec .engineComplete (busyWith fIcmp) = .next t ∧ (t.ok && t.results.l4Kind == .unknown) = true) :=
  ⟨rfl, exists_next (check := fun t => t.ok) (by decide), exists_next (by decide)⟩

/-! #### The engine rows -/

/-- The engine after a failure. -/
def engineFailed : State := { busyWith fUdp with engine := EngineVars.failed .truncatedFrame .eth }

theorem witness_DecodeAndUnknownRowsReturn :
    engineFailed.engine.failure ≠ none ∧ (atTransport fIcmp).engine.failure = none := by decide

/-- Each clause of DEC_ETH and of DEC_IPV4, at its boundary. -/
theorem witness_EthernetAndIpv4RowsReadTheFrame :
    (busyWith (fUdp.take 13)).frameLen.toNat < 14 ∧ 14 ≤ (busyWith (fUdp.take 14)).frameLen.toNat ∧
    engineFailed.engine.failure ≠ none ∧ (busyWith fUdp).engine.failure = none ∧
    (busyWith (fUdp.take 33)).frameLen.toNat - 14 < 20 ∧
    (20 ≤ (busyWith (patched fUdp 14 0x44)).frameLen.toNat - 14 ∧
      frameIhl (busyWith (patched fUdp 14 0x44)).byteAt < 5) ∧
    (20 ≤ (busyWith fIhl15).frameLen.toNat - 14 ∧
      (busyWith fIhl15).frameLen.toNat - 14 < 4 * frameIhl (busyWith fIhl15).byteAt) ∧
    (20 ≤ (busyWith (fUdp.take 34)).frameLen.toNat - 14 ∧ 5 ≤ frameIhl (busyWith (fUdp.take 34)).byteAt ∧
      4 * frameIhl (busyWith (fUdp.take 34)).byteAt ≤ (busyWith (fUdp.take 34)).frameLen.toNat - 14) := by decide

theorem witness_TcpRowsReadTheTransportRegion :
    engineFailed.engine.failure ≠ none ∧ (atTransport fTcp).engine.failure = none ∧
    decTcp (atTransport (patched fTcp 46 0x60)).byteAt 34 (57 - 34) = .fail .invalidHeaderLength .tcp ∧
    decTcp (atTransport fTcp).byteAt 34 (57 - 34) = .ok ⟨1234, 80, 1, 0, 5, 20⟩ := by decide

theorem witness_UdpRowsReadTheTransportRegion :
    engineFailed.engine.failure ≠ none ∧ (atTransport fUdp).engine.failure = none ∧
    decUdp (atTransport (fUdp.take 41)).byteAt 34 (41 - 34) = .fail .truncatedFrame .udp ∧
    decUdp (atTransport fUdp).byteAt 34 (44 - 34) = .ok ⟨5353, 53, 10, 0⟩ := by decide

/-- A frame whose bytes are all written, and whose second row leaves a header with protocol 17. -/
theorem witness_RowsInOrderEqualDecode :
    (∀ i, i < (busyWith fUdp).frameLen.toNat → ∃ v, Memory.read (busyWith fUdp).fb i = some v) ∧
    answers (exec .decIpv4 (busyWith fUdp)) (fun t => t.engine.ip.any fun h => h.protocol == 17#8) = true := by
  have written : ∀ i, i < (busyWith fUdp).frameLen.toNat →
      Memory.read (busyWith fUdp).fb i = some (bytesOf fUdp i) := by decide
  exact ⟨fun i h => ⟨_, written i h⟩, by decide⟩

/-- A step that returns nothing on rdata, and one that does. -/
theorem witness_EngineVarsSteerNothing :
    (∃ t, step (busyWith fUdp) = .next t) ∧ ∃ t, step aboutToRead = .next t := ⟨⟨_, rfl⟩, ⟨_, rfl⟩⟩

/-! #### Invariant, entry point, platform -/

theorem witness_StepKeepsInvariant :
    (Inv (busyLen 0x800#16) ∧ ∃ t, step (busyLen 0x800#16) = .next t) ∧
    (Inv tcpDone ∧ ∃ t, step tcpDone = .next t) := ⟨⟨inv_busyFull, ⟨_, rfl⟩⟩, ⟨inv_tcpDone, ⟨_, rfl⟩⟩⟩

theorem witness_EveryStatusValueIsReached : 0x322#32 ∈ statusValues ∧ 0x422#32 ∉ statusValues := by decide

/-- From DONE and from IDLE, with a frame that decodes and with one that fails; the completion before the second poll. -/
theorem witness_DecodeEntryPoint :
    tcpDone.phase ≠ .busy ∧ fUdp.length ≤ tcpDone.params.maxFrame ∧
    (∃ p, decodeFrame (bytesOf fUdp) fUdp.length 2 = .ok p ∧ (p.plen == 2) = true) ∧
    State.reset.phase ≠ .busy ∧ fIhl15.length ≤ State.reset.params.maxFrame ∧
    decodeFrame (bytesOf fIhl15) fIhl15.length 2 = .fail .invalidHeaderLength .ipv4 ∧
    (∀ events ∈ [[], [engineEvent]], events = [] ∨ events = [engineEvent]) :=
  ⟨by decide, by decide, exists_packet (by decide), by decide, by decide, by decide, by decide⟩

/-- Two instances, each with an event. -/
def twoInstances : Platform := ⟨busyLen 0, [aboutToRead]⟩

theorem witness_InstancesShareNothing :
    (∃ q, twoInstances.stepAt 0 = .next q) ∧ (0 : Nat) ≠ 1 ∧
    (∃ q r, twoInstances.stepAt 0 = .next q ∧ q.stepAt 1 = .next r) :=
  ⟨⟨_, rfl⟩, by decide, ⟨_, _, rfl, rfl⟩⟩

end Sys2Proof.Tests
end

section
/-! PROOF. Which instructions a state accepts, said once for `exec`, and which words decode to such an instruction. -/

namespace Sys2Proof.Machine

/-! ### Instructions -/

/-- The instructions that have a next state in `s`: no refused SIZE (R158), no START of a frame longer than MAX_FRAME
unless BUSY (R145), and ENGINE_COMPLETE only while BUSY (R129). -/
def State.Accepts (s : State) : Instr → Prop
  | .halfRefused _ _ | .size11Refused _ _ => False
  | .engineComplete => s.phase = .busy
  | .ctrlStart _ => s.phase ≠ .busy → s.frameLen.toNat ≤ s.params.maxFrame
  | _ => True

theorem execEngineComplete_next_iff (s : State) : (∃ t, execEngineComplete s = .next t) ↔ s.phase = .busy := by
  unfold execEngineComplete
  cases s.phase <;> simp

theorem tryStart_next_iff (s : State) (irqEn : Bool) :
    (∃ t, s.tryStart irqEn = .next t) ↔ s.frameLen.toNat ≤ s.params.maxFrame := by
  unfold State.tryStart
  split_ifs with hlong <;> simpa using hlong

theorem execCtrlStart_next_iff (s : State) (irqEn : Bool) :
    (∃ t, execCtrlStart irqEn s = .next t) ↔ (s.phase ≠ .busy → s.frameLen.toNat ≤ s.params.maxFrame) := by
  unfold execCtrlStart
  cases s.phase
  case busy => simp
  case idle => simpa using tryStart_next_iff s irqEn
  case done => simpa using tryStart_next_iff s irqEn

/-- Everything but the refused sizes, START and ENGINE_COMPLETE answers a next state unconditionally. -/
theorem exec_next_iff (i : Instr) (s : State) : (∃ t, exec i s = .next t) ↔ s.Accepts i := by
  cases i with
  | engineComplete => exact execEngineComplete_next_iff s
  | ctrlStart irqEn => exact execCtrlStart_next_iff s irqEn
  | halfRefused _ _ | size11Refused _ _ => exact iff_of_false (fun ⟨_, h⟩ => nomatch h) id
  | _ => exact iff_of_true ⟨_, rfl⟩ trivial

/-- A step that takes an operation answers a next state exactly when its instruction is accepted (R62). -/
theorem step_next_iff {s : State} {w : InstrWord} {later : List Event} {i : Instr} (he : s.inputs = .op w :: later)
    (hd : decode s.params w = .ok i) : (∃ t, step s = .next t) ↔ s.Accepts i := by
  rw [step_op he hd]
  exact exec_next_iff i { s with inputs := later }

/-- A step that takes a hardware reset (R190). -/
theorem step_hardwareReset {s : State} {later : List Event} (he : s.inputs = .hardwareReset :: later) :
    step s = .next { s with inputs := later }.hardReset := by
  simp [step, State.nextEvent, he, State.takeEvent]

/-! ### Words -/

theorem accepts_decodeProto8 (s : State) (protocol : Byte) : s.Accepts (decodeProto8 protocol) := by
  unfold decodeProto8
  split_ifs <;> trivial

theorem accepts_decodeEngine_iff (s : State) (row : EngineRow) :
    s.Accepts (decodeEngine row) ↔ (row = .complete → s.phase = .busy) := by
  cases row with
  | complete => exact ⟨fun h _ => h, fun h => h rfl⟩
  | _ => exact iff_of_true trivial (fun h => nomatch h)

/-- The mask of R145 read by fields: a word write to CTRL with START = 1 and SRST = 0. -/
theorem isStart_iff_fields (ht : Selector) (wdata : Word) :
    isStart ht wdata ↔ selSize ht = 0b10#2 ∧ selWe ht = true ∧ (selAddr ht).toNat / 4 = 0x400 ∧
      wdata.getLsbD 1 = false ∧ wdata.getLsbD 0 = true := by
  have hsize : selSize ht = 2#2 ↔ ht.toNat / 131072 = 2 := by rw [← BitVec.toNat_inj, selSize_toNat]; rfl
  have hbit1 : wdata.getLsbD 1 = decide (wdata.toNat / 2 % 2 = 1) := by
    simp [BitVec.getLsbD, Nat.testBit_eq_decide_div_mod_eq]
  have hbit0 : wdata.getLsbD 0 = decide (wdata.toNat % 2 = 1) := by simp [BitVec.getLsbD]
  rw [isStart, and_registerMask, and_word_3, hsize, selWe_eq, selAddr_toNat, hbit1, hbit0]
  simp only [BitVec.toNat_ofNat, Nat.reducePow, Nat.reduceMod, decide_eq_true_eq, decide_eq_false_iff_not]
  omega

/-- CTRL lies in the register window, which no frame buffer reaches (R51). -/
theorem ctrl_in_regWindow (p : Params) {addr : Addr} (h : addr.toNat / 4 = 0x400) :
    inBuffer p addr = false ∧ inRegWindow addr = true := by
  have hlimit := maxFrame_le p
  have hbuffer : ¬ addr.toNat < p.maxFrame := by omega
  have hwindow : 0x1000 ≤ addr.toNat ∧ addr.toNat < 0x1080 := by omega
  simp [inBuffer, inRegWindow, Config.regBase, Config.regEnd, hbuffer, hwindow]

/-- A word write to CTRL is refused only as a START (R144 to R146). -/
theorem accepts_ctrlWrite_iff (s : State) {addr : Addr} (wdata : Word) (h : addr.toNat / 4 = 0x400) :
    s.Accepts (decodeRegWord true addr wdata) ↔
      (wdata.getLsbD 1 = false ∧ wdata.getLsbD 0 = true → s.phase ≠ .busy →
        s.frameLen.toNat ≤ s.params.maxFrame) := by
  simp only [decodeRegWord, h]
  split_ifs with hsrst hstart
  · exact iff_of_true trivial fun ⟨hbit1, _⟩ => absurd (hsrst.symm.trans hbit1) (by decide)
  · exact ⟨fun haccepts _ => haccepts, fun hduty => hduty ⟨by simpa using hsrst, hstart⟩⟩
  · exact iff_of_true trivial fun ⟨_, hbit0⟩ => absurd hbit0 hstart

theorem accepts_decodeRegWord_of_not_ctrlWrite (s : State) {we : Bool} {addr : Addr} (wdata : Word)
    (h : we = true → addr.toNat / 4 ≠ 0x400) : s.Accepts (decodeRegWord we addr wdata) := by
  unfold decodeRegWord
  split
  case h_1 hctrl => exact absurd hctrl (h rfl)
  case h_6 => split_ifs <;> trivial
  all_goals trivial

/-- A transaction of legal width is refused only as a START: a word write to CTRL with START = 1 and SRST = 0. -/
theorem accepts_decodeAccess_iff (s : State) (width : Width) (we : Bool) (addr : Addr) (wdata : Word) :
    s.Accepts (decodeAccess s.params width we addr wdata) ↔
      ((width = .word ∧ we = true ∧ addr.toNat / 4 = 0x400 ∧ wdata.getLsbD 1 = false ∧ wdata.getLsbD 0 = true) →
        s.phase ≠ .busy → s.frameLen.toNat ≤ s.params.maxFrame) := by
  by_cases hctrl : width = .word ∧ we = true ∧ addr.toNat / 4 = 0x400
  · obtain ⟨rfl, rfl, haddr⟩ := hctrl
    obtain ⟨hbuffer, hwindow⟩ := ctrl_in_regWindow s.params haddr
    simpa [decodeAccess, hbuffer, hwindow, haddr] using accepts_ctrlWrite_iff s wdata haddr
  · refine iff_of_true ?_ fun ⟨hwidth, hwe, haddr, _⟩ => absurd ⟨hwidth, hwe, haddr⟩ hctrl
    unfold decodeAccess
    split_ifs
    · cases width <;> cases we <;> trivial
    · cases width
      case byte => cases we <;> trivial
      case word => exact accepts_decodeRegWord_of_not_ctrlWrite s wdata fun hwe haddr => hctrl ⟨rfl, hwe, haddr⟩
    · trivial
    · trivial

/-- Of the legal SIZE codes, 10 names the word. -/
theorem selWidth_eq_word_iff {ht : Selector} (h01 : selSize ht ≠ 0b01#2) (h11 : selSize ht ≠ 0b11#2) :
    selWidth ht = .word ↔ selSize ht = 0b10#2 := by
  have hbit : ht.getLsbD 18 = (selSize ht).getLsbD 1 := by simp [selSize]
  rw [selWidth, hbit]
  generalize selSize ht = size at h01 h11
  revert size
  decide

/-- A host transaction is accepted exactly when the host keeps its duties (R158, R162). -/
theorem accepts_decodeByFields_iff (s : State) (ht : Selector) (wdata : Word) :
    s.Accepts (decodeByFields s.params ht wdata) ↔ DutyKept s (.op (.ht ht wdata)) := by
  unfold decodeByFields DutyKept
  split_ifs with h01 h11
  · exact iff_of_false id fun ⟨hsize, _⟩ => hsize h01
  · exact iff_of_false id fun ⟨_, hsize, _⟩ => hsize h11
  · rw [accepts_decodeAccess_iff, selWidth_eq_word_iff h01 h11, ← isStart_iff_fields]
    simp only [ne_eq, h01, h11, not_false_eq_true, true_and]

/-! ### Events -/

/-- Settles O8: the word at the head decodes, and its instruction is accepted exactly when the duty is kept. -/
theorem stepCompletesExactlyOnKeptDuties : Obligations.StepCompletesExactlyOnKeptDuties := by
  intro s e later he
  match e with
  | .hardwareReset => exact iff_of_true ⟨_, step_hardwareReset he⟩ trivial
  | .op (.proto8 protocol) => exact (step_next_iff he rfl).trans (iff_of_true (accepts_decodeProto8 s protocol) trivial)
  | .op (.engine row) => exact (step_next_iff he rfl).trans (accepts_decodeEngine_iff s row)
  | .op (.ht ht wdata) =>
    exact (step_next_iff he (decodeHt_eq_byFields s.params ht wdata)).trans (accepts_decodeByFields_iff s ht wdata)

end Sys2Proof.Machine
end

section
/-! PROOF. What a failed decode says of the frame, what a packet's result fields are, and the frame's bytes in them. -/

namespace Sys2Proof.Machine

/-! ### A failed decode meets the table of R170 -/

theorem andThen_eq_fail {α β : Type} {r : Result α} {f : α → Result β} {k : ErrKind} {l : Layer} :
    r.andThen f = .fail k l ↔ r = .fail k l ∨ ∃ v, r = .ok v ∧ f v = .fail k l := by
  cases r <;> simp

theorem decEth_failsWith {b : Nat → Byte} {n : Nat} {k : ErrKind} {l : Layer} (e : decEth b n = .fail k l) :
    FailsWith b n k l := by
  unfold decEth at e
  split_ifs at e with hn
  cases e
  exact hn

theorem decIpv4_failsWith {b : Nat → Byte} {n : Nat} {k : ErrKind} {l : Layer} (h14 : 14 ≤ n)
    (e : decIpv4 b (n - 14) = .fail k l) : FailsWith b n k l := by
  simp only [decIpv4, scaleWords_toNat, lowNibble_toNat] at e
  split_ifs at e with hm hlen
  · cases e
    exact ⟨h14, hm⟩
  · cases e
    simp only [FailsWith, frameIhl]
    omega

theorem decTcp_failsWith {b : Nat → Byte} {n : Nat} {k : ErrKind} {l : Layer} (hip : IpHeaderFits b n)
    (h6 : b 23 = 6#8) (e : decTcp b (frameL4 b) (n - frameL4 b) = .fail k l) : FailsWith b n k l := by
  simp only [decTcp, scaleWords_toNat, highNibble_toNat] at e
  split_ifs at e with hr hlen
  · cases e
    exact ⟨hip, h6, hr⟩
  · cases e
    refine ⟨hip, h6, by omega, ?_⟩
    simp only [tcpDataOffset]
    omega

theorem decUdp_failsWith {b : Nat → Byte} {n : Nat} {k : ErrKind} {l : Layer} (hip : IpHeaderFits b n)
    (h17 : b 23 = 17#8) (e : decUdp b (frameL4 b) (n - frameL4 b) = .fail k l) : FailsWith b n k l := by
  unfold decUdp at e
  split_ifs at e with hr
  cases e
  exact ⟨hip, h17, hr⟩

theorem dispatch_failsWith {b : Nat → Byte} {n : Nat} {k : ErrKind} {l : Layer} (hip : IpHeaderFits b n)
    (e : dispatch b (b 23) (frameL4 b) (n - frameL4 b) = .fail k l) : FailsWith b n k l := by
  unfold dispatch at e
  split_ifs at e with h6 h17
  · rcases andThen_eq_fail.1 e with e | ⟨_, _, e⟩
    · exact decTcp_failsWith hip h6 e
    · cases e
  · rcases andThen_eq_fail.1 e with e | ⟨_, _, e⟩
    · exact decUdp_failsWith hip h17 e
    · cases e
  · cases e

/-- The header length of a decoded IPv4 header is the frame's own (R101, R123). -/
theorem decIpv4_hlen {b : Nat → Byte} {m : Nat} {h : IpHeader} (e : decIpv4 b m = .ok h) :
    h.hlen.toNat = 4 * frameIhl b := by
  obtain ⟨-, -, -, rfl⟩ := decIpv4_ok e
  rw [scaleWords_toNat, lowNibble_toNat]
  rfl

/-- An IPv4 header that decodes fits its frame (R101). -/
theorem decIpv4_fits {b : Nat → Byte} {n : Nat} {h : IpHeader} (h14 : 14 ≤ n) (e : decIpv4 b (n - 14) = .ok h) :
    IpHeaderFits b n := by
  obtain ⟨hm, h20, hle, -⟩ := decIpv4_ok e
  rw [decIpv4_hlen e] at h20 hle
  exact ⟨by omega, by omega, hle⟩

theorem decodeFrame_failsWith {b : Nat → Byte} {n : Nat} {ts : BitVec 64} {k : ErrKind} {l : Layer}
    (e : decodeFrame b n ts = .fail k l) : FailsWith b n k l := by
  unfold decodeFrame at e
  rcases andThen_eq_fail.1 e with e | ⟨eth, heth, e⟩
  · exact decEth_failsWith e
  have h14 := (decEth_ok heth).1
  rcases andThen_eq_fail.1 e with e | ⟨ip, hip, e⟩
  · exact decIpv4_failsWith h14 e
  rcases andThen_eq_fail.1 e with e | ⟨_, _, e⟩
  · have hprotocol : ip.protocol = b 23 := by rw [(decIpv4_ok hip).2.2.2]
    rw [hprotocol, decIpv4_hlen hip] at e
    exact dispatch_failsWith (decIpv4_fits h14 hip) e
  · cases e

/-- A frame that no row of R170's table fails is decoded. -/
theorem exists_decodedBy {b : Nat → Byte} {n : Nat} (ts : BitVec 64) (h : ∀ k l, ¬FailsWith b n k l) :
    ∃ p, decodeFrame b n ts = .ok p ∧ DecodedBy b n ts p := by
  cases e : decodeFrame b n ts with
  | ok p => exact ⟨p, rfl, decodeFrame_ok e⟩
  | fail k l => exact absurd (decodeFrame_failsWith e) (h k l)

/-! ### The result fields of a packet (R129) -/

namespace Packet

variable (p : Packet)

@[simp] theorem results_resTs : p.results.resTs = p.ts := by unfold results; split <;> rfl
@[simp] theorem results_dstMac : p.results.dstMac = p.eth.dstMac := by unfold results; split <;> rfl
@[simp] theorem results_srcMac : p.results.srcMac = p.eth.srcMac := by unfold results; split <;> rfl
@[simp] theorem results_ipVer : p.results.ipVer = p.ip.ver := by unfold results; split <;> rfl
@[simp] theorem results_ipIhl : p.results.ipIhl = p.ip.ihl := by unfold results; split <;> rfl
@[simp] theorem results_ipProto : p.results.ipProto = p.ip.protocol := by unfold results; split <;> rfl
@[simp] theorem results_ipHlen : p.results.ipHlen = p.ip.hlen := by unfold results; split <;> rfl
@[simp] theorem results_srcIp : p.results.srcIp = p.ip.srcIp := by unfold results; split <;> rfl
@[simp] theorem results_dstIp : p.results.dstIp = p.ip.dstIp := by unfold results; split <;> rfl
@[simp] theorem results_l4Off : p.results.l4Off = BitVec.ofNat 16 p.l4 := by unfold results; split <;> rfl
@[simp] theorem results_payloadOff : p.results.payloadOff = BitVec.ofNat 16 p.poff := by
  unfold results; split <;> rfl
@[simp] theorem results_payloadLen : p.results.payloadLen = BitVec.ofNat 16 p.plen := by
  unfold results; split <;> rfl

theorem results_l4Hlen : p.results.l4Hlen = p.transport.hlen := by
  unfold results Transport.hlen
  cases p.transport <;> rfl

end Packet

/-- The offsets of a decoded packet fit their 16-bit fields (R133). -/
theorem DecodedBy.results_offsets {b : Nat → Byte} {n : Nat} {ts : BitVec 64} {p : Packet} (d : DecodedBy b n ts p)
    (hn : n < 2 ^ 16) :
    p.results.l4Off.toNat = p.l4 ∧ p.results.payloadOff.toNat = p.poff ∧ p.results.payloadLen.toNat = p.plen := by
  obtain ⟨-, hl4, hle, hpoff, hsum⟩ := d.bounds
  simp only [Packet.results_l4Off, Packet.results_payloadOff, Packet.results_payloadLen, BitVec.toNat_ofNat]
  refine ⟨?_, ?_, ?_⟩ <;> exact Nat.mod_eq_of_lt (by omega)

/-- The transport fields of a decoded packet are a tagged union (R27). -/
theorem DecodedBy.taggedUnion {b : Nat → Byte} {n : Nat} {ts : BitVec 64} {p : Packet} (d : DecodedBy b n ts p) :
    TaggedUnion p.results := by
  have ht := d.transport
  unfold Packet.results
  cases htr : p.transport with
  | tcp h =>
    rw [htr] at ht
    cases ht with
    | tcp _ _ hd =>
      obtain ⟨-, h20, -, rfl⟩ := decTcp_ok hd
      rw [scaleWords_toNat] at h20
      exact ⟨rfl, rfl, rfl, by simp only; omega, scaleWords_toNat _⟩
  | udp h => exact ⟨rfl, rfl, rfl, rfl, rfl⟩
  | unknown q => exact ⟨rfl, rfl, rfl, rfl, rfl, rfl, rfl, rfl⟩

/-- What a decode of a frame within `limit` publishes is a published result (R27, R130, R133). -/
theorem DecodedBy.published {b : Nat → Byte} {n limit : Nat} {ts : BitVec 64} {p : Packet} (d : DecodedBy b n ts p)
    (hn : n < 2 ^ 16) (hlimit : n ≤ limit) : Published limit p.results := by
  obtain ⟨hl4, hpoff, hplen⟩ := d.results_offsets hn
  obtain ⟨-, -, -, -, hsum⟩ := d.bounds
  obtain ⟨-, h20, -, hip⟩ := decIpv4_ok d.ip
  have hhlen : p.ip.hlen.toNat = 4 * p.ip.ihl.toNat := by rw [hip]; exact scaleWords_toNat _
  exact {
    union := d.taggedUnion
    ihl := by rw [Packet.results_ipIhl]; omega
    hlen := by rw [Packet.results_ipHlen, Packet.results_ipIhl]; exact hhlen
    l4 := by rw [hl4, Packet.results_ipHlen]; exact d.l4
    poff := by rw [hpoff, hl4, Packet.results_l4Hlen]; exact d.poff
    fits := by rw [hpoff, hplen]; omega }

end Sys2Proof.Machine
end

section
/-! PROOF. What one step makes of its state, and the invariant kept by every effect. -/

namespace Sys2Proof.Machine

/-! ### The move of a step -/

/-- What a step makes of its state: nothing, one instruction, or a hardware reset, with `later` still to come. -/
inductive Move where
  | rest
  | run (i : Instr) (later : List Event)
  | reset (later : List Event)

/-- What `s` becomes by the move. -/
def Move.apply (s : State) : Move → Host.Outcome State Fault Refusal
  | .rest => .next s
  | .run i later => exec i { s with inputs := later }
  | .reset later => .next { s with inputs := later }.hardReset

/-- Every word that reaches the block decodes (R84). -/
theorem exists_decode (p : Params) (w : InstrWord) : ∃ i, decode p w = .ok i := by
  cases w with
  | ht sel wdata => exact ⟨_, decodeHt_eq_byFields p sel wdata⟩
  | proto8 q => exact ⟨_, rfl⟩
  | engine row => exact ⟨_, rfl⟩

theorem step_nil {s : State} (he : s.inputs = []) : step s = s.rest := by
  simp [step, State.nextEvent, he]

/-- The events, the parameters and STATE say which move a step makes (R62). -/
theorem exists_move (s : State) :
    ∃ m : Move, ∀ u : State, u.inputs = s.inputs → u.params = s.params → u.phase = s.phase → step u = m.apply u := by
  cases he : s.inputs with
  | nil =>
    cases hp : s.phase with
    | busy => exact ⟨.run .engineComplete [], fun u hu _ hup => by
      have hlater : Move.apply u (.run .engineComplete []) = exec .engineComplete u := by rw [Move.apply, ← hu]
      simp only [hlater, step_nil hu, State.rest, hup]⟩
    | idle | done => exact ⟨.rest, fun u hu _ hup => by simp [step_nil hu, State.rest, hup, Move.apply]⟩
  | cons e later =>
    cases e with
    | hardwareReset => exact ⟨.reset later, fun u hu _ _ => step_hardwareReset hu⟩
    | op w =>
      obtain ⟨i, hi⟩ := exists_decode s.params w
      exact ⟨.run i later, fun u hu hparams _ => step_op hu (hparams ▸ hi)⟩

/-! ### The invariant -/

/-! #### STATUS after each of its writers is one of R31's values (R47) -/

namespace State

variable (s : State)

theorem statusWord_softReset : s.softReset.statusWord = 0x000#32 := by
  simp [statusWord, layerCode, errCode, Phase.code]
theorem statusWord_hardReset : s.hardReset.statusWord = 0x000#32 := by
  simp [statusWord, layerCode, errCode, Phase.code]
theorem statusWord_startDecode (e : Bool) : (s.startDecode e).statusWord = 0x001#32 := by
  simp [statusWord, layerCode, errCode, Phase.code]
theorem statusWord_publish (r : Results) : (s.publish r).engineIdle.statusWord = 0x006#32 := by
  simp [statusWord, layerCode, errCode, Phase.code]

/-- The six failures of R170's table; it has no row for a header length at ETH or UDP. -/
theorem statusWord_takeFailure_mem {b : Nat → Byte} {n : Nat} {k : ErrKind} {l : Layer} (h : FailsWith b n k l) :
    (s.takeFailure k l).engineIdle.statusWord ∈ statusValues := by
  have hword : (s.takeFailure k l).engineIdle.statusWord =
      (layerCode (some l) ++ errCode (some k) ++ 0#1 ++ 0#1 ++ 2#2 : BitVec 12).setWidth 32 := rfl
  rw [hword]
  cases k with
  | truncatedFrame => cases l <;> decide
  | invalidHeaderLength =>
    cases l with
    | eth | udp => exact h.elim
    | ipv4 | tcp => decide

end State

namespace Inv

variable {s : State}

theorem withInputs (h : Inv s) (later : List Event) : Inv { s with inputs := later } :=
  ⟨h.memory, h.buffer, h.status, h.noResult, h.result, h.frameFits⟩

theorem withFb (h : Inv s) {m : Memory} (hwf : Memory.wf m) (hin : Memory.within s.params.maxFrame m) :
    Inv { s with fb := m } :=
  ⟨hwf, hin, h.status, h.noResult, h.result, h.frameFits⟩

theorem withFrameLen (h : Inv s) (hready : s.phase ≠ .busy) (len : BitVec 16) : Inv { s with frameLen := len } :=
  ⟨h.memory, h.buffer, h.status, h.noResult, h.result, fun hbusy => absurd hbusy hready⟩

theorem startDecode (h : Inv s) (e : Bool) (hfits : s.frameLen.toNat ≤ s.params.maxFrame) : Inv (s.startDecode e) :=
  ⟨h.memory, h.buffer, by rw [s.statusWord_startDecode e]; decide, fun _ => rfl, nofun, fun _ => hfits⟩

theorem softReset (h : Inv s) : Inv s.softReset :=
  ⟨h.memory, h.buffer, by rw [s.statusWord_softReset]; decide, fun _ => rfl, nofun, nofun⟩

theorem hardReset (s : State) : Inv s.hardReset :=
  ⟨.nil, nofun, by rw [s.statusWord_hardReset]; decide, fun _ => rfl, nofun, nofun⟩

theorem publish {p : Packet} (h : Inv s) (hp : Published s.params.maxFrame p.results) :
    Inv (s.publish p.results).engineIdle :=
  ⟨h.memory, h.buffer, by rw [s.statusWord_publish _]; decide, fun hno => absurd ⟨rfl, rfl⟩ hno, fun _ _ => hp, nofun⟩

theorem takeFailure {b : Nat → Byte} {n : Nat} {k : ErrKind} {l : Layer} (h : Inv s) (hf : FailsWith b n k l) :
    Inv (s.takeFailure k l).engineIdle :=
  ⟨h.memory, h.buffer, s.statusWord_takeFailure_mem hf, fun _ => rfl, nofun, nofun⟩

theorem complete (h : Inv s) (hbusy : s.phase = .busy) : Inv s.complete := by
  rcases complete_cases s with ⟨p, hp, e⟩ | ⟨k, l, hfail, e⟩ <;> rw [e]
  · exact h.publish ((decodeFrame_ok hp).published s.frameLen.isLt (h.frameFits hbusy))
  · exact h.takeFailure (decodeFrame_failsWith hfail)

theorem effect {i : Instr} {t : State} (h : Inv s) (he : Effect i s t) : Inv t := by
  cases he with
  | nothing => exact h
  | reply | evaluated | tsSet | irqSet =>
    exact ⟨h.memory, h.buffer, h.status, h.noResult, h.result, h.frameFits⟩
  | stored8 a v =>
    rw [s.storeByte_eq]
    exact h.withFb (s.wf_storeByte _ v h.memory) (s.within_storeByte _ v h.buffer)
  | stored32 a v =>
    rw [s.storeWord_eq]
    exact h.withFb (s.wf_storeWord _ v h.memory) (s.within_storeWord _ v h.buffer)
  | lenSet len _ hready => exact h.withFrameLen hready len
  | softReset => exact h.softReset
  | started e _ _ hfits => exact h.startDecode e hfits
  | completed _ hbusy => exact h.complete hbusy

end Inv

/-- Settles O56: the reset state is the hardware reset of itself. -/
theorem resetSatisfiesInvariant : Obligations.ResetSatisfiesInvariant := Inv.hardReset State.reset

/-- Settles O57, by the step's move, and by the effect of its instruction. -/
theorem stepKeepsInvariant : Obligations.StepKeepsInvariant := by
  intro s t hinv hstep
  obtain ⟨m, hm⟩ := exists_move s
  rw [hm s rfl rfl rfl] at hstep
  cases m with
  | rest => cases hstep; exact hinv
  | reset later => cases hstep; exact Inv.hardReset _
  | run i later => exact (hinv.withInputs later).effect (exec_effect hstep)

end Sys2Proof.Machine
end

section
/-! PROOF. Who writes STATUS and IRQ_EN: the four instructions that do, said once for `exec`, and the rules of STATE, STATUS
and irq read off it. -/

namespace Sys2Proof.Machine

/-! ### The instructions that write STATUS or IRQ_EN -/

/-- The rows that may write STATUS or IRQ_EN (R47, R144 to R146). -/
def writesControl : Instr → Bool
  | .ctrlSrst | .ctrlStart _ | .ctrlWr _ | .engineComplete => true
  | _ => false

theorem ne_of_not_writesControl {i : Instr} (h : writesControl i = false) :
    i ≠ .ctrlSrst ∧ i ≠ .engineComplete ∧ (∀ e, i ≠ .ctrlStart e) ∧ ∀ e, i ≠ .ctrlWr e := by
  refine ⟨?_, ?_, fun e => ?_, fun e => ?_⟩ <;> rintro rfl <;> exact nomatch (show true = false from h)

/-- Neither STATUS nor IRQ_EN differs. -/
structure SameControl (s t : State) : Prop where
  irqEn : t.irqEn = s.irqEn
  phase : t.phase = s.phase
  ok    : t.ok = s.ok
  err   : t.err = s.err
  layer : t.layer = s.layer

/-- What an instruction that answers `t` makes of STATUS and IRQ_EN. -/
inductive Controlled (s : State) : Instr → State → Prop where
  | kept {i : Instr} {t : State} (hi : writesControl i = false) (h : SameControl s t) : Controlled s i t
  | irqSet (e : Bool) : Controlled s (.ctrlWr e) { s with irqEn := e }
  | startIgnored (e : Bool) (h : s.phase = .busy) : Controlled s (.ctrlStart e) { s with irqEn := e }
  | started (e : Bool) (h : s.phase ≠ .busy) : Controlled s (.ctrlStart e) (s.startDecode e)
  | reset : Controlled s .ctrlSrst s.softReset
  | completed (h : s.phase = .busy) : Controlled s .engineComplete s.complete

theorem Effect.sameControl {i : Instr} {s t : State} (h : Effect i s t) (hi : writesControl i = false) :
    SameControl s t := by
  cases h with
  | nothing | reply | evaluated | lenSet | tsSet => exact ⟨rfl, rfl, rfl, rfl, rfl⟩
  | stored8 a v => rw [s.storeByte_eq]; exact ⟨rfl, rfl, rfl, rfl, rfl⟩
  | stored32 a v => rw [s.storeWord_eq]; exact ⟨rfl, rfl, rfl, rfl, rfl⟩
  | irqSet e h => rcases h with rfl | ⟨rfl, -⟩ <;> cases hi
  | softReset h | started _ h | completed h => subst h; cases hi

theorem exec_engineComplete_of_busy {s : State} (h : s.phase = .busy) : exec .engineComplete s = .next s.complete := by
  simp [exec, execEngineComplete, h]

theorem exec_ctrlStart_of_busy {s : State} (e : Bool) (h : s.phase = .busy) :
    exec (.ctrlStart e) s = .next { s with irqEn := e } := by
  simp [exec, execCtrlStart, h]

theorem exec_ctrlStart_of_ready {s : State} (e : Bool) (h : s.phase ≠ .busy)
    (hfits : s.frameLen.toNat ≤ s.params.maxFrame) : exec (.ctrlStart e) s = .next (s.startDecode e) := by
  have hlong : ¬ s.params.maxFrame < s.frameLen.toNat := by omega
  cases hp : s.phase with
  | busy => exact absurd hp h
  | idle | done => simp [exec, execCtrlStart, State.tryStart, hp, hlong]

theorem exec_controlled {i : Instr} {s t : State} (h : exec i s = .next t) : Controlled s i t := by
  have haccepts := (exec_next_iff i s).1 ⟨t, h⟩
  by_cases hi : writesControl i = false
  · exact .kept hi ((exec_effect h).sameControl hi)
  cases i with
  | ctrlSrst => cases h; exact .reset
  | ctrlWr e => cases h; exact .irqSet e
  | engineComplete =>
    rw [exec_engineComplete_of_busy haccepts] at h
    cases h
    exact .completed haccepts
  | ctrlStart e =>
    by_cases hp : s.phase = .busy
    · rw [exec_ctrlStart_of_busy e hp] at h
      cases h
      exact .startIgnored e hp
    · rw [exec_ctrlStart_of_ready e hp (haccepts hp)] at h
      cases h
      exact .started e hp
  | _ => exact absurd rfl hi

theorem complete_phase (s : State) : s.complete.phase = .done := by
  rcases complete_cases s with ⟨p, -, e⟩ | ⟨k, l, -, e⟩ <;> rw [e] <;> rfl

theorem complete_irqEn (s : State) : s.complete.irqEn = s.irqEn := by
  rcases complete_cases s with ⟨p, -, e⟩ | ⟨k, l, -, e⟩ <;> rw [e] <;> rfl

/-- All a step that takes a hardware reset can do (R190). -/
theorem step_hardwareReset_eq {s t : State} {later : List Event} (he : s.inputs = .hardwareReset :: later)
    (h : step s = .next t) : t = { s with inputs := later }.hardReset := by
  rw [step_hardwareReset he] at h
  cases h
  rfl

/-! ### The transitions of STATE (R22) -/

/-- Settles O23, by the instructions that write STATUS. -/
theorem stateTransitionsAreTheListed : Obligations.StateTransitionsAreTheListed := by
  refine ⟨fun s t i h => ?_, fun s t later he h => by rw [step_hardwareReset_eq he h]; rfl⟩
  cases exec_controlled h with
  | kept hi h =>
    obtain ⟨hsrst, hcomplete, hstart, -⟩ := ne_of_not_writesControl hi
    simp [hsrst, hcomplete, hstart, h.phase]
  | irqSet e => simp
  | startIgnored e hp => simp [hp]
  | started e hp => simp [hp]
  | reset => simp
  | completed hp => simp [hp, complete_phase]

/-- Settles O24, by the instructions that write STATUS. -/
theorem statusWritersAreTheListed : Obligations.StatusWritersAreTheListed := by
  refine ⟨fun s t i h => ?_, fun s t later he h => by rw [step_hardwareReset_eq he h]; exact ⟨rfl, rfl, rfl, rfl⟩⟩
  cases exec_controlled h with
  | kept hi h =>
    obtain ⟨hsrst, hcomplete, hstart, -⟩ := ne_of_not_writesControl hi
    simp [hsrst, hcomplete, hstart, h.phase, h.ok, h.err, h.layer]
  | irqSet e => simp
  | startIgnored e hp => simp [hp]
  | started e hp => simp [hp]
  | reset => simp
  | completed hp =>
    rcases complete_cases s with ⟨p, hd, e⟩ | ⟨k, l, hd, e⟩ <;> simp [e, hd, hp]

theorem irq_iff (s : State) : s.irq = true ↔ s.phase = .done ∧ s.irqEn = true := by
  simp [State.irq]

/-- Settles O22, by the instructions that write STATUS. -/
theorem interruptRisesAndFalls : Obligations.InterruptRisesAndFalls := by
  refine ⟨fun s t i h => ⟨irq_iff t, ?_⟩, fun s t later he h => by rw [step_hardwareReset_eq he h]; rfl⟩
  cases exec_controlled h with
  | kept hi h =>
    obtain ⟨hsrst, hcomplete, hstart, hwrite⟩ := ne_of_not_writesControl hi
    have hirq : t.irq = s.irq := by simp only [State.irq, h.phase, h.irqEn]
    simp +contextual [hsrst, hcomplete, hstart, hwrite, hirq]
  | irqSet e => cases e <;> simp +contextual [State.irq]
  | startIgnored e hp => simp [State.irq, hp]
  | started e hp => simp [State.irq]
  | reset => simp [State.irq]
  | completed hp => simp [State.irq, hp, complete_phase, complete_irqEn]

end Sys2Proof.Machine
end

section
/-! PROOF. The frame's own bytes in a published result (R26, R70 to R73). -/

namespace Sys2Proof.Machine

/-! ### Fields in network order hold the frame's bytes (R14) -/

theorem holdsBytes_byte (b : Nat → Byte) (o : Nat) : HoldsBytes (b o) b o 1 := by
  intro k hk
  obtain rfl : k = 0 := by omega
  exact BitVec.extractLsb'_eq_self

/-- The next byte of the frame goes below the field. -/
theorem HoldsBytes.append {w : Nat} {v : BitVec w} {b : Nat → Byte} {o n : Nat} (h : HoldsBytes v b o n) :
    HoldsBytes (v ++ b (o + n)) b o (n + 1) := by
  intro k hk
  by_cases hlast : k = n
  · subst hlast
    rw [show 8 * (k + 1 - 1 - k) = 0 by omega, BitVec.extractLsb'_append_eq_right]
  · rw [BitVec.extractLsb'_append_eq_of_le (by omega),
      show 8 * (n + 1 - 1 - k) - 8 = 8 * (n - 1 - k) by omega]
    exact h k (by omega)

theorem holdsBytes_be16 (b : Nat → Byte) (o : Nat) : HoldsBytes (be16 b o) b o 2 := (holdsBytes_byte b o).append

theorem holdsBytes_be32 (b : Nat → Byte) (o : Nat) : HoldsBytes (be32 b o) b o 4 :=
  (holdsBytes_byte b o).append.append.append

theorem holdsBytes_mac48 (b : Nat → Byte) (o : Nat) : HoldsBytes (mac48 b o) b o 6 :=
  (holdsBytes_byte b o).append.append.append.append.append

/-! ### A completion of a frame that no row of R170 fails -/

theorem exec_engineComplete_of_ok {s : State} {p : Packet} (hbusy : s.phase = .busy)
    (h : decodeFrame s.byteAt s.frameLen.toNat s.ts = .ok p) :
    exec .engineComplete s = .next (s.publish p.results).engineIdle := by
  rw [exec_engineComplete_of_busy hbusy, State.complete, h]
  rfl

theorem DecodedBy.l4_eq {b : Nat → Byte} {n : Nat} {ts : BitVec 64} {p : Packet} (d : DecodedBy b n ts p) :
    p.l4 = frameL4 b := by
  rw [d.l4, decIpv4_hlen d.ip]
  rfl

theorem DecodedBy.protocol_eq {b : Nat → Byte} {n : Nat} {ts : BitVec 64} {p : Packet} (d : DecodedBy b n ts p) :
    p.ip.protocol = b 23 := by
  rw [(decIpv4_ok d.ip).2.2.2]

/-- Settles O46: the packet's Ethernet and IPv4 headers are the codecs', whose fields are the frame's bytes. -/
theorem successPublishesLinkAndNetworkBytes : Obligations.SuccessPublishesLinkAndNetworkBytes := by
  intro s hbusy hnofail
  obtain ⟨p, hp, d⟩ := exists_decodedBy s.ts hnofail
  obtain ⟨hl4Off, -, -⟩ := d.results_offsets s.frameLen.isLt
  obtain ⟨-, heth⟩ := decEth_ok d.eth
  obtain ⟨-, -, -, hip⟩ := decIpv4_ok d.ip
  refine ⟨_, exec_engineComplete_of_ok hbusy hp, State.statusWord_publish _ _, ?_⟩
  simp only [State.engineIdle_results, State.publish_results, hl4Off, d.l4_eq, Packet.results_resTs,
    Packet.results_dstMac, Packet.results_srcMac, Packet.results_ipVer, Packet.results_ipIhl, Packet.results_ipHlen,
    Packet.results_ipProto, Packet.results_srcIp, Packet.results_dstIp, heth, hip]
  exact ⟨d.ts, holdsBytes_mac48 _ 0, holdsBytes_mac48 _ 6, highNibble_toNat _, lowNibble_toNat _,
    by rw [scaleWords_toNat, lowNibble_toNat]; rfl, trivial, holdsBytes_be32 _ 26, holdsBytes_be32 _ 30, trivial⟩

/-! ### The transport fields, by protocol -/

theorem DecodedBy.results_tcp {b : Nat → Byte} {n : Nat} {ts : BitVec 64} {p : Packet} (d : DecodedBy b n ts p)
    (h6 : b 23 = 6#8) :
    p.results.l4Kind = .tcp ∧ HoldsBytes p.results.srcPort b (frameL4 b) 2 ∧
      HoldsBytes p.results.dstPort b (frameL4 b + 2) 2 ∧ HoldsBytes p.results.tcpSeq b (frameL4 b + 4) 4 ∧
      HoldsBytes p.results.tcpAck b (frameL4 b + 8) 4 ∧
      p.results.tcpDoff.toNat = tcpDataOffset b (frameL4 b) ∧
      p.results.l4Hlen.toNat = 4 * tcpDataOffset b (frameL4 b) := by
  have ht := d.transport
  rw [d.protocol_eq, d.l4_eq, h6] at ht
  unfold Packet.results
  generalize p.transport = t at ht
  cases ht with
  | tcp h _ hd =>
    obtain ⟨-, -, -, rfl⟩ := decTcp_ok hd
    exact ⟨rfl, holdsBytes_be16 b _, holdsBytes_be16 b _, holdsBytes_be32 b _, holdsBytes_be32 b _,
      highNibble_toNat _, by rw [scaleWords_toNat, highNibble_toNat]; rfl⟩
  | udp _ h17 => exact absurd h17 (by decide)
  | unknown hne => exact absurd rfl hne

theorem DecodedBy.results_udp {b : Nat → Byte} {n : Nat} {ts : BitVec 64} {p : Packet} (d : DecodedBy b n ts p)
    (h17 : b 23 = 17#8) :
    p.results.l4Kind = .udp ∧ HoldsBytes p.results.srcPort b (frameL4 b) 2 ∧
      HoldsBytes p.results.dstPort b (frameL4 b + 2) 2 ∧ HoldsBytes p.results.udpLen b (frameL4 b + 4) 2 ∧
      HoldsBytes p.results.udpCsum b (frameL4 b + 6) 2 ∧ p.results.l4Hlen.toNat = 8 := by
  have ht := d.transport
  rw [d.protocol_eq, d.l4_eq, h17] at ht
  unfold Packet.results
  generalize p.transport = t at ht
  cases ht with
  | udp h _ hd =>
    obtain ⟨-, rfl⟩ := decUdp_ok hd
    exact ⟨rfl, holdsBytes_be16 b _, holdsBytes_be16 b _, holdsBytes_be16 b _, holdsBytes_be16 b _, rfl⟩
  | tcp _ h6 => exact absurd h6 (by decide)
  | unknown _ hne => exact absurd rfl hne

theorem DecodedBy.results_unknown {b : Nat → Byte} {n : Nat} {ts : BitVec 64} {p : Packet} (d : DecodedBy b n ts p)
    (h6 : b 23 ≠ 6#8) (h17 : b 23 ≠ 17#8) :
    p.results.l4Kind = .unknown ∧ p.results.unkProto = b 23 ∧ p.results.l4Hlen.toNat = 0 := by
  have ht := d.transport
  rw [d.protocol_eq] at ht
  unfold Packet.results
  generalize p.transport = t at ht
  cases ht with
  | tcp _ h => exact absurd h h6
  | udp _ h => exact absurd h h17
  | unknown => exact ⟨rfl, rfl, rfl⟩

/-- Settles O47, by the protocol class of the packet's transport header. -/
theorem successPublishesTransportBytes : Obligations.SuccessPublishesTransportBytes := by
  intro s hbusy hnofail
  obtain ⟨p, hp, d⟩ := exists_decodedBy s.ts hnofail
  obtain ⟨-, hpoff, hplen⟩ := d.results_offsets s.frameLen.isLt
  obtain ⟨-, -, -, -, hsum⟩ := d.bounds
  refine ⟨_, exec_engineComplete_of_ok hbusy hp, ?_, ?_, d.results_tcp, d.results_udp, d.results_unknown⟩
  · simp only [State.engineIdle_results, State.publish_results, hpoff, p.results_l4Hlen, d.poff, d.l4_eq]
  · simp only [State.engineIdle_results, State.publish_results, hpoff, hplen, hsum]

end Sys2Proof.Machine
end

section
/-! PROOF. The engine's named values and rdata steer nothing: a step from a state with others of them answers the same next
state but for them. -/

namespace Sys2Proof.Machine

/-- `s` with other named values of the engine and another word on rdata (log 5, log 6). -/
def State.withUnseen (s : State) (v : EngineVars) (w : Word) : State := { s with engine := v, rdata := w }

/-- The outcome is `t` but for the named values and rdata. The named values are `t`'s if those given were `s`'s; rdata is
`t`'s, or `t` kept `s`'s and the outcome keeps the one given. -/
def Follows (s t : State) (v : EngineVars) (w : Word) (o : Host.Outcome State Fault Refusal) : Prop :=
  ∃ v' w', o = .next (t.withUnseen v' w') ∧ (v = s.engine → v' = t.engine) ∧
    (w' = t.rdata ∨ t.rdata = s.rdata ∧ w' = w)

namespace State

variable (s : State) (v : EngineVars) (w : Word)

/-! ### The operations of a state do not look at them -/

theorem storeByte_withUnseen (a : Nat) (x : Byte) :
    (s.withUnseen v w).storeByte a x = (s.storeByte a x).withUnseen v w := by
  rcases s.storeByte_cases a x with ⟨h, e⟩ | ⟨h, e⟩
  · rw [e]; exact if_pos h
  · rw [e]; exact if_neg h

theorem storeWord_withUnseen (a : Nat) (x : Word) :
    (s.withUnseen v w).storeWord a x = (s.storeWord a x).withUnseen v w := by
  simp only [storeWord, storeByte_withUnseen]

theorem unlessBusy_withUnseen {f : State → State} (hf : f (s.withUnseen v w) = (f s).withUnseen v w) :
    (s.withUnseen v w).unlessBusy f = (s.unlessBusy f).withUnseen v w := by
  by_cases h : s.phase = .busy
  · rw [s.unlessBusy_busy f h, (s.withUnseen v w).unlessBusy_busy f h]
  · rw [s.unlessBusy_ready f h, (s.withUnseen v w).unlessBusy_ready f h, hf]

/-- A completion drops the named values and keeps rdata. -/
theorem complete_withUnseen : (s.withUnseen v w).complete = s.complete.withUnseen EngineVars.cleared w := by
  have hdecode : decodeFrame (s.withUnseen v w).byteAt (s.withUnseen v w).frameLen.toNat (s.withUnseen v w).ts =
      decodeFrame s.byteAt s.frameLen.toNat s.ts := rfl
  unfold complete
  rw [hdecode]
  cases decodeFrame s.byteAt s.frameLen.toNat s.ts <;> rfl

theorem complete_engine : s.complete.engine = EngineVars.cleared := rfl

theorem complete_rdata : s.complete.rdata = s.rdata := by
  rcases complete_cases s with ⟨p, -, e⟩ | ⟨k, l, -, e⟩ <;> rw [e] <;> rfl

end State

section

variable {s : State} {v : EngineVars} {w : Word}

/-! ### The outcomes of the shared operations -/

/-- An operation that keeps both fields and looks at neither. -/
theorem follows_kept {t : State} (hengine : t.engine = s.engine) (hrdata : t.rdata = s.rdata) :
    Follows s t v w (.next (t.withUnseen v w)) :=
  ⟨v, w, rfl, fun hv => hv.trans hengine.symm, .inr ⟨hrdata, rfl⟩⟩

/-- A host write of an input (R199). -/
theorem follows_unlessBusy {f : State → State} (hengine : (f s).engine = s.engine) (hrdata : (f s).rdata = s.rdata)
    (hf : f (s.withUnseen v w) = (f s).withUnseen v w) :
    Follows s (s.unlessBusy f) v w (.next ((s.withUnseen v w).unlessBusy f)) := by
  rw [s.unlessBusy_withUnseen v w hf]
  by_cases h : s.phase = .busy
  · rw [s.unlessBusy_busy f h]; exact follows_kept rfl rfl
  · rw [s.unlessBusy_ready f h]; exact follows_kept hengine hrdata

theorem follows_reply (x : Word) (n : Nat) :
    Follows s ((s.returns x).useDraws n) v w (.next (((s.withUnseen v w).returns x).useDraws n)) :=
  ⟨v, x, rfl, id, .inl rfl⟩

theorem follows_returns (x : Word) : Follows s (s.returns x) v w (.next ((s.withUnseen v w).returns x)) :=
  follows_reply x 0

theorem follows_evaluate (f : (Nat → Byte) → Nat → EngineVars → EngineVars) :
    Follows s (s.evaluate f) v w (.next ((s.withUnseen v w).evaluate f)) :=
  ⟨f s.byteAt s.frameLen.toNat v, w, rfl, by rintro rfl; rfl, .inr ⟨rfl, rfl⟩⟩

/-- The two returns from a decode and its completion clear the named values. -/
theorem follows_cleared {t : State} (hengine : t.engine = EngineVars.cleared) (hrdata : t.rdata = s.rdata) :
    Follows s t v w (.next (t.withUnseen EngineVars.cleared w)) :=
  ⟨_, w, rfl, fun _ => hengine.symm, .inr ⟨hrdata, rfl⟩⟩

/-! ### Instructions and steps -/

theorem exec_follows {i : Instr} {t : State} (h : exec i s = .next t) :
    Follows s t v w (exec i (s.withUnseen v w)) := by
  have haccepts := (exec_next_iff i s).1 ⟨t, h⟩
  cases i with
  | halfRefused _ _ | size11Refused _ _ => exact haccepts.elim
  | engineComplete =>
    rw [exec_engineComplete_of_busy haccepts] at h
    cases h
    rw [exec_engineComplete_of_busy (s := s.withUnseen v w) haccepts, s.complete_withUnseen]
    exact follows_cleared s.complete_engine s.complete_rdata
  | ctrlStart e =>
    by_cases hp : s.phase = .busy
    · rw [exec_ctrlStart_of_busy e hp] at h
      cases h
      rw [exec_ctrlStart_of_busy (s := s.withUnseen v w) e hp]
      exact follows_kept rfl rfl
    · rw [exec_ctrlStart_of_ready e hp (haccepts hp)] at h
      cases h
      rw [exec_ctrlStart_of_ready (s := s.withUnseen v w) e hp (haccepts hp)]
      exact follows_cleared rfl rfl
  | ctrlSrst => cases h; exact follows_cleared rfl rfl
  | ctrlWr e => cases h; exact follows_kept rfl rfl
  | bufWr8 a x =>
    cases h
    refine follows_unlessBusy ?_ ?_ (s.storeByte_withUnseen v w _ x) <;> rw [s.storeByte_eq]
  | bufWr32 a x =>
    cases h
    refine follows_unlessBusy ?_ ?_ (s.storeWord_withUnseen v w _ x) <;> rw [s.storeWord_eq]
  | lenWr _ | tsLoWr _ | tsHiWr _ => cases h; exact follows_unlessBusy rfl rfl rfl
  | regByteWr _ _ | statusWr _ | resWrLow _ _ | resWrHigh _ _ | rsvdWr _ _ | unmappedWr _ _ _ =>
    cases h; exact follows_kept rfl rfl
  | decode | decEth | decIpv4 | dispatchTcp | dispatchUdp | dispatchUnknown _ | decTcp | decUdp =>
    cases h; exact follows_evaluate _
  | bufRd8 _ => cases h; exact follows_reply _ 1
  | bufRd32 _ => cases h; exact follows_reply _ 4
  | regByteRd _ | ctrlRd | statusRd | lenRd | tsLoRd | tsHiRd | resTsLoRd | resTsHiRd | dstMacHiRd | dstMacLoRd
  | srcMacHiRd | srcMacLoRd | ipInfoRd | srcIpRd | dstIpRd | l4InfoRd | portsRd | tcpSeqRd | tcpAckRd | udpLenCsumRd
  | region0Rd | region1Rd | rsvdRd _ | unmappedRd _ _ => cases h; exact follows_returns _

theorem step_follows {t : State} (h : step s = .next t) : Follows s t v w (step (s.withUnseen v w)) := by
  obtain ⟨m, hm⟩ := exists_move s
  rw [hm s rfl rfl rfl] at h
  rw [hm (s.withUnseen v w) rfl rfl rfl]
  cases m with
  | rest => cases h; exact follows_kept rfl rfl
  | reset later => cases h; exact follows_cleared rfl rfl
  | run i later => exact exec_follows (s := { s with inputs := later }) h

end

/-- Settles O55: each of the two fields varied alone. -/
theorem engineVarsSteerNothing : Obligations.EngineVarsSteerNothing := by
  intro s t h
  refine ⟨fun v => ?_, fun w => ?_⟩
  · obtain ⟨v', w', hstep, -, hw⟩ : Follows s t v s.rdata (step { s with engine := v }) := step_follows h
    obtain rfl : w' = t.rdata := hw.elim id fun ⟨hkept, hgiven⟩ => hgiven.trans hkept.symm
    exact ⟨v', hstep⟩
  · obtain ⟨v', w', hstep, hv, hw⟩ : Follows s t s.engine w (step { s with rdata := w }) := step_follows h
    obtain rfl := hv rfl
    rcases hw with rfl | ⟨hkept, rfl⟩
    · exact .inl hstep
    · exact .inr ⟨hkept, hstep⟩

end Sys2Proof.Machine
end

section
/-! PROOF. A run from reset for each value of STATUS (R31). -/

namespace Sys2Proof.Machine

/-- The host writes these bytes of a frame of `len` bytes, starts a decode, and the engine completes it. -/
def decodeEvents (bytes : List (Addr × Byte)) (len : Word) : List Event :=
  bytes.map (fun c => hostW8 c.1 c.2) ++ [hostW32 0x1008#16 len, hostStart, engineEvent]

/-- STATUS after a run from reset; none after a refused one. -/
def statusAfter (events : List Event) : Option Word :=
  match State.reset.runEvents events with
  | .next t => some t.statusWord
  | .fault _ => none
  | .refused _ => none

theorem exists_run_of_statusAfter {events : List Event} {v : Word} (h : statusAfter events = some v) :
    ∃ (events : List Event) (t : State), State.reset.runEvents events = .next t ∧ t.statusWord = v := by
  unfold statusAfter at h
  split at h
  · next t ht => exact ⟨events, t, ht, Option.some.inj h⟩
  · cases h
  · cases h

/-- Byte 14 of an IPv4 header with IHL 5 (R71). -/
def ihl5 : Addr × Byte := (14#16, 0x45#8)

theorem statusAfter_idle_busy : statusAfter [] = some 0x000#32 ∧ statusAfter [hostStart] = some 0x001#32 := by decide

/-- An unknown protocol over a header without payload. -/
theorem statusAfter_success : statusAfter (decodeEvents [ihl5, (23#16, 0#8)] 34#32) = some 0x006#32 := by decide

theorem statusAfter_truncated :
    statusAfter (decodeEvents [] 13#32) = some 0x112#32 ∧ statusAfter (decodeEvents [] 33#32) = some 0x212#32 ∧
    statusAfter (decodeEvents [ihl5, (23#16, 6#8)] 53#32) = some 0x312#32 ∧
    statusAfter (decodeEvents [ihl5, (23#16, 17#8)] 41#32) = some 0x412#32 := by decide

/-- IHL 4, and a TCP data offset of 4. -/
theorem statusAfter_invalidLength :
    statusAfter (decodeEvents [(14#16, 0x44#8)] 34#32) = some 0x222#32 ∧
    statusAfter (decodeEvents [ihl5, (23#16, 6#8), (46#16, 0x40#8)] 54#32) = some 0x322#32 := by decide

/-- Settles O58, by one run for each value; a byte no run writes is not looked at by its outcome. -/
theorem everyStatusValueIsReached : Obligations.EveryStatusValueIsReached := by
  intro v hv
  obtain ⟨hidle, hbusy⟩ := statusAfter_idle_busy
  obtain ⟨heth, hipv4, htcp, hudp⟩ := statusAfter_truncated
  obtain ⟨hihl, hdoff⟩ := statusAfter_invalidLength
  simp only [statusValues, List.mem_cons, List.not_mem_nil, or_false] at hv
  rcases hv with rfl | rfl | rfl | rfl | rfl | rfl | rfl | rfl | rfl
  · exact exists_run_of_statusAfter hidle
  · exact exists_run_of_statusAfter hbusy
  · exact exists_run_of_statusAfter statusAfter_success
  · exact exists_run_of_statusAfter heth
  · exact exists_run_of_statusAfter hipv4
  · exact exists_run_of_statusAfter hihl
  · exact exists_run_of_statusAfter htcp
  · exact exists_run_of_statusAfter hdoff
  · exact exists_run_of_statusAfter hudp

end Sys2Proof.Machine
end

section
/-! PROOF. A step as exec of its instruction (R62), who writes the frame buffer (R68), and the host's accesses: reads
without a side effect, idempotent writes (R59). -/

namespace Sys2Proof.Machine

/-! ### The step -/

/-- Settles O5: the model's own law of a step that takes an operation. -/
theorem stepRunsDecodedInstruction : Obligations.StepRunsDecodedInstruction :=
  fun _ _ _ _ he hd => step_op he hd

/-! ### Who writes the frame buffer (R68) -/

@[simp] theorem State.complete_fb (s : State) : s.complete.fb = s.fb := by
  rcases complete_cases s with ⟨p, -, e⟩ | ⟨k, l, -, e⟩ <;> simp [e]

/-- Settles O16: of all effects only the two stores touch the buffer. -/
theorem onlyHostWritesChangeFrameBuffer : Obligations.OnlyHostWritesChangeFrameBuffer := by
  intro s t i h hbyte hword
  cases exec_effect h with
  | stored8 a v hi => exact absurd hi (hbyte a v)
  | stored32 a v hi => exact absurd hi (hword a v)
  | completed => exact s.complete_fb
  | nothing | reply | evaluated | lenSet | tsSet | irqSet | softReset | started => rfl

/-! ### Host reads (R59) -/

/-- A returned word is a reply that uses no draw. -/
theorem exists_returns {s : State} (w : Word) :
    ∃ v n, Host.Outcome.next (φ := Fault) (ρ := Refusal) (s.returns w) = .next ((s.returns v).useDraws n) :=
  ⟨w, 0, rfl⟩

/-- A host read returns a word and uses some draws; it does nothing else. -/
theorem exec_hostRead {i : Instr} (s : State) (h : isHostRead i = true) :
    ∃ v n, exec i s = .next ((s.returns v).useDraws n) := by
  cases i with
  | bufRd8 _ => exact ⟨_, 1, rfl⟩
  | bufRd32 _ => exact ⟨_, 4, rfl⟩
  | regByteRd _ | ctrlRd | statusRd | lenRd | tsLoRd | tsHiRd | resTsLoRd | resTsHiRd | dstMacHiRd | dstMacLoRd
  | srcMacHiRd | srcMacLoRd | ipInfoRd | srcIpRd | dstIpRd | l4InfoRd | portsRd | tcpSeqRd | tcpAckRd | udpLenCsumRd
  | region0Rd | region1Rd | rsvdRd _ | unmappedRd _ _ => exact exists_returns _
  | _ => cases h

/-- Settles O27: a host read changes rdata and the draw counter alone. -/
theorem readsHaveNoSideEffect : Obligations.ReadsHaveNoSideEffect := by
  intro s i h
  obtain ⟨v, n, e⟩ := exec_hostRead s h
  exact ⟨_, e, rfl⟩

/-! ### Host writes done twice (R59) -/

/-- A write finds its address where it left it, whatever the order of the other bytes. -/
theorem Memory.write_write_same (m : Memory) (a : Nat) (v : Byte) : write (write m a v) a v = write m a v := by
  induction m with
  | nil => simp [write]
  | cons c m ih =>
    obtain ⟨k, b⟩ := c
    rcases lt_trichotomy a k with h | rfl | h
    · simp [write, h]
    · simp [write]
    · simp [write, h.not_gt, h.ne', ih]

theorem Memory.write_comm_of_lt (m : Memory) {a x : Nat} (v u : Byte) (hax : a < x) :
    write (write m x u) a v = write (write m a v) x u := by
  induction m with
  | nil => simp [write, hax, hax.not_gt, hax.ne']
  | cons c m ih =>
    obtain ⟨k, b⟩ := c
    rcases lt_trichotomy a k with h | rfl | h
    · rcases lt_trichotomy x k with hx | rfl | hx
      · simp [write, h, hx, hax, hax.not_gt, hax.ne']
      · simp [write, hax, hax.not_gt, hax.ne']
      · simp [write, h, hx.not_gt, hx.ne', hax.not_gt, hax.ne']
    · simp [write, hax.not_gt, hax.ne']
    · simp [write, h.not_gt, h.ne', (h.trans hax).not_gt, (h.trans hax).ne', ih]

/-- Writes to different addresses commute. -/
theorem Memory.write_comm (m : Memory) {a x : Nat} (v u : Byte) (hax : a ≠ x) :
    write (write m x u) a v = write (write m a v) x u := by
  rcases lt_or_gt_of_ne hax with h | h
  · exact write_comm_of_lt m v u h
  · exact (write_comm_of_lt m u v h).symm

namespace State

variable (s : State)

theorem storeByte_twice (a : Nat) (v : Byte) : (s.storeByte a v).storeByte a v = s.storeByte a v := by
  by_cases h : a < s.params.maxFrame <;> simp [storeByte, h, Memory.write_write_same]

theorem storeByte_comm {a x : Nat} (v u : Byte) (hax : a ≠ x) :
    (s.storeByte x u).storeByte a v = (s.storeByte a v).storeByte x u := by
  by_cases ha : a < s.params.maxFrame <;> by_cases hx : x < s.params.maxFrame <;>
    simp [storeByte, ha, hx, Memory.write_comm _ v u hax]

variable {s}

/-- A byte that is already stored stays so when another address is written. -/
theorem storeByte_stored {a x : Nat} {v : Byte} (u : Byte) (hax : a ≠ x) (h : s.storeByte a v = s) :
    (s.storeByte x u).storeByte a v = s.storeByte x u := by rw [storeByte_comm s v u hax, h]

/-- Storing a word whose four bytes are already stored changes nothing. -/
theorem storeWord_stored {w : Nat} {v : Word} (h0 : s.storeByte w (lane v 0) = s)
    (h1 : s.storeByte (w + 1) (lane v 1) = s) (h2 : s.storeByte (w + 2) (lane v 2) = s)
    (h3 : s.storeByte (w + 3) (lane v 3) = s) : s.storeWord w v = s := by
  rw [storeWord, h0, h1, h2, h3]

theorem storeWord_twice (s : State) (w : Nat) (v : Word) : (s.storeWord w v).storeWord w v = s.storeWord w v :=
  storeWord_stored
    (storeByte_stored _ (by omega) (storeByte_stored _ (by omega) (storeByte_stored _ (by omega) (storeByte_twice ..))))
    (storeByte_stored _ (by omega) (storeByte_stored _ (by omega) (storeByte_twice ..)))
    (storeByte_stored _ (by omega) (storeByte_twice ..))
    (storeByte_twice ..)

/-- A write that is idempotent is so under the input hazard (R199). -/
theorem unlessBusy_twice {f : State → State} (h : f (f s) = f s) :
    (s.unlessBusy f).unlessBusy f = s.unlessBusy f := by
  by_cases hs : s.phase = .busy
  · rw [s.unlessBusy_busy f hs, s.unlessBusy_busy f hs]
  rw [s.unlessBusy_ready f hs]
  by_cases hf : (f s).phase = .busy
  · rw [(f s).unlessBusy_busy f hf]
  · rw [(f s).unlessBusy_ready f hf, h]

end State

/-- The same in the form of the writes of `exec`. -/
theorem next_unlessBusy_twice {s : State} {f : State → State} (h : f (f s) = f s) :
    Host.Outcome.next (φ := Fault) (ρ := Refusal) ((s.unlessBusy f).unlessBusy f) = .next (s.unlessBusy f) :=
  congrArg _ (State.unlessBusy_twice h)

/-- Settles O28: a store of a word is four commuting stores of bytes; TS keeps the half that is not written. -/
theorem writesAreIdempotent : Obligations.WritesAreIdempotent := by
  intro s a b v len i hi
  simp only [List.mem_cons, List.not_mem_nil, or_false] at hi
  rcases hi with rfl | rfl | rfl | rfl | rfl | rfl
  · exact ⟨_, rfl, next_unlessBusy_twice (s.storeByte_twice _ b)⟩
  · exact ⟨_, rfl, next_unlessBusy_twice (s.storeWord_twice _ v)⟩
  · exact ⟨_, rfl, next_unlessBusy_twice rfl⟩
  · exact ⟨_, rfl, next_unlessBusy_twice
      (congrArg (fun high : Word => { s with ts := high ++ v }) BitVec.extractLsb'_append_eq_left)⟩
  · exact ⟨_, rfl, next_unlessBusy_twice
      (congrArg (fun low : Word => { s with ts := v ++ low }) BitVec.extractLsb'_append_eq_right)⟩
  · exact ⟨_, rfl, rfl⟩

end Sys2Proof.Machine
end

section
/-! PROOF. Encoding: what decode answers on the fields of a word, that it answers a well-formed instruction on every word,
and that it undoes encode. -/

namespace Sys2Proof.Machine

/-- Settles O1: each word runs through the table. -/
theorem writtenOutWordsDecode : Obligations.WrittenOutWordsDecode := by
  unfold Obligations.WrittenOutWordsDecode
  decide

/-! ### The protocol byte (R77) -/

/-- The row of mask FF compares the whole byte. -/
theorem decodeProto8_eq (q : Byte) :
    decodeProto8 q = if q = 6#8 then .dispatchTcp else if q = 17#8 then .dispatchUdp else .dispatchUnknown q := by
  have hmask : q &&& 0xFF#8 = q := BitVec.and_allOnes
  rw [decodeProto8, hmask]

theorem decodeProto8_unknown {q : Byte} (h6 : q ≠ 6#8) (h17 : q ≠ 17#8) : decodeProto8 q = .dispatchUnknown q := by
  rw [decodeProto8_eq, if_neg h6, if_neg h17]

/-- Settles O4: a byte is its value, and decode of a byte is the choice between the three rows. -/
theorem protocolByteSelectsDispatch : Obligations.ProtocolByteSelectsDispatch := by
  intro p q
  refine ⟨fun h => ?_, fun h => ?_, fun h6 h17 => ?_⟩
  · obtain rfl : q = 6#8 := BitVec.eq_of_toNat_eq h
    rfl
  · obtain rfl : q = 17#8 := BitVec.eq_of_toNat_eq h
    rfl
  · exact congrArg Except.ok
      (decodeProto8_unknown (fun h => h6 (congrArg BitVec.toNat h)) (fun h => h17 (congrArg BitVec.toNat h)))

/-! ### The address map (R51) -/

theorem inRegWindow_iff (a : Addr) : inRegWindow a = true ↔ 0x1000 ≤ a.toNat ∧ a.toNat < 0x1080 := by
  simp only [inRegWindow, Bool.and_eq_true, decide_eq_true_eq]
  exact Iff.rfl

theorem inReserved_iff (a : Addr) :
    inReserved a = true ↔ (0x1014 ≤ a.toNat ∧ a.toNat < 0x1020) ∨ (0x1060 ≤ a.toNat ∧ a.toNat < 0x1080) := by
  simp [inReserved]

/-- The reserved registers lie in the register window. -/
theorem inRegWindow_of_inReserved {a : Addr} (h : inReserved a = true) : inRegWindow a = true := by
  rw [inReserved_iff] at h
  rw [inRegWindow_iff]
  omega

/-- No frame buffer reaches the register window. -/
theorem inBuffer_eq_false_of_inRegWindow (p : Params) {a : Addr} (h : inRegWindow a = true) : inBuffer p a = false := by
  have hlimit := maxFrame_le p
  rw [inRegWindow_iff] at h
  simp only [inBuffer, decide_eq_false_iff_not]
  omega

theorem isUnmapped_iff (p : Params) (a : Addr) :
    isUnmapped p a = true ↔ inBuffer p a = false ∧ inRegWindow a = false := by
  simp [isUnmapped]

/-! ### Every word decodes to a well-formed instruction (R84) -/

theorem wellFormed_decodeProto8 (p : Params) (q : Byte) : (decodeProto8 q).wellFormed p = true := by
  rw [decodeProto8_eq]
  split_ifs with h6 h17
  · rfl
  · rfl
  · simp [Instr.wellFormed, h6, h17]

theorem wellFormed_decodeEngine (p : Params) (row : EngineRow) : (decodeEngine row).wellFormed p = true := by
  cases row <;> rfl

theorem wellFormed_decodeRegWord (p : Params) (we : Bool) {a : Addr} (wdata : Word) (h : inRegWindow a = true) :
    (decodeRegWord we a wdata).wellFormed p = true := by
  rw [inRegWindow_iff] at h
  unfold decodeRegWord
  split
  case h_1 => split_ifs <;> rfl
  case h_6 =>
    simp only [imp_false] at *
    split_ifs with hlow hhigh
    · simp only [Instr.wellFormed, Bool.and_eq_true, decide_eq_true_eq]
      omega
    · simp only [Instr.wellFormed, Bool.and_eq_true, decide_eq_true_eq]
      omega
    · simp only [Instr.wellFormed, inReserved_iff]
      omega
  case h_28 =>
    simp only [imp_false, Instr.wellFormed, inReserved_iff] at *
    omega
  all_goals rfl

theorem wellFormed_decodeAccess (p : Params) (width : Width) (we : Bool) (a : Addr) (wdata : Word) :
    (decodeAccess p width we a wdata).wellFormed p = true := by
  unfold decodeAccess
  split_ifs with hbuffer hwindow hwe
  · cases width <;> cases we <;> exact hbuffer
  · cases width
    case byte => cases we <;> exact hwindow
    case word => exact wellFormed_decodeRegWord p we wdata hwindow
  all_goals exact (isUnmapped_iff p a).2 ⟨by simpa using hbuffer, by simpa using hwindow⟩

theorem wellFormed_decodeByFields (p : Params) (ht : Selector) (wdata : Word) :
    (decodeByFields p ht wdata).wellFormed p = true := by
  unfold decodeByFields
  split_ifs
  · rfl
  · rfl
  · exact wellFormed_decodeAccess ..

/-- Settles O3: by the format of the word; a host transaction is read by its fields. -/
theorem decoderIsTotal : Obligations.DecoderIsTotal := by
  intro p w
  cases w with
  | ht sel wdata => exact ⟨_, decodeHt_eq_byFields p sel wdata, wellFormed_decodeByFields p sel wdata⟩
  | proto8 q => exact ⟨_, rfl, wellFormed_decodeProto8 p q⟩
  | engine row => exact ⟨_, rfl, wellFormed_decodeEngine p row⟩

/-! ### The fields of an encoded word (R78) -/

@[simp] theorem selSize_selector (size : BitVec 2) (we : Bool) (a : Addr) : selSize (selector size we a) = size := by
  rw [selSize, selector, BitVec.extractLsb'_append_eq_of_le (by decide)]
  exact BitVec.extractLsb'_append_eq_left

@[simp] theorem selAddr_selector (size : BitVec 2) (we : Bool) (a : Addr) : selAddr (selector size we a) = a := by
  simp only [selAddr, selector]
  exact BitVec.extractLsb'_append_eq_right

@[simp] theorem selWe_selector (size : BitVec 2) (we : Bool) (a : Addr) : selWe (selector size we a) = we := by
  simp only [selWe, selector, BitVec.getLsbD_append]
  simp

@[simp] theorem selWidth_selector (width : Width) (we : Bool) (a : Addr) :
    selWidth (selector (sizeCode width) we a) = width := by
  simp only [selWidth, selector, BitVec.getLsbD_append]
  cases width <;> rfl

/-- A transaction of legal width is decoded by its address. -/
theorem decode_selector (p : Params) (width : Width) (we : Bool) (a : Addr) (wdata : Word) :
    decode p (.ht (selector (sizeCode width) we a) wdata) = .ok (decodeAccess p width we a wdata) := by
  have hlegal : sizeCode width ≠ 0b01#2 ∧ sizeCode width ≠ 0b11#2 := by cases width <;> decide
  simp [decode, decodeHt_eq_byFields, decodeByFields, hlegal]

theorem decode_readSel (p : Params) (width : Width) (a : Addr) :
    decode p (readSel width a) = .ok (decodeAccess p width false a 0#32) := decode_selector ..

theorem decode_writeSel (p : Params) (width : Width) (a : Addr) (wdata : Word) :
    decode p (writeSel width a wdata) = .ok (decodeAccess p width true a wdata) := decode_selector ..

/-- An operand narrower than WDATA comes back from its low bits. -/
theorem extractLsb'_setWidth_word {n : Nat} (v : BitVec n) (hn : n ≤ 32) : (v.setWidth 32).extractLsb' 0 n = v := by
  rw [BitVec.extractLsb'_setWidth_of_le (by omega), BitVec.extractLsb'_eq_self]

/-! ### A transaction by its address (R51) -/

section
variable {p : Params} {a : Addr} (we : Bool) (wdata : Word)

theorem decodeAccess_buffer_byte (h : inBuffer p a = true) :
    decodeAccess p .byte we a wdata = if we then .bufWr8 a (wdata.extractLsb' 0 8) else .bufRd8 a := by
  cases we <;> simp [decodeAccess, h]

theorem decodeAccess_buffer_word (h : inBuffer p a = true) :
    decodeAccess p .word we a wdata = if we then .bufWr32 a wdata else .bufRd32 a := by
  cases we <;> simp [decodeAccess, h]

theorem decodeAccess_window_byte (h : inRegWindow a = true) :
    decodeAccess p .byte we a wdata = if we then .regByteWr a (wdata.extractLsb' 0 8) else .regByteRd a := by
  cases we <;> simp [decodeAccess, h, inBuffer_eq_false_of_inRegWindow p h]

theorem decodeAccess_window_word (h : inRegWindow a = true) :
    decodeAccess p .word we a wdata = decodeRegWord we a wdata := by
  simp [decodeAccess, h, inBuffer_eq_false_of_inRegWindow p h]

theorem decodeAccess_unmapped (width : Width) (h : isUnmapped p a = true) :
    decodeAccess p width we a wdata = if we then .unmappedWr width a wdata else .unmappedRd width a := by
  obtain ⟨hbuffer, hwindow⟩ := (isUnmapped_iff p a).1 h
  simp [decodeAccess, hbuffer, hwindow]

end

/-! ### A word transaction to the register window by its register (R29) -/

theorem decode_readReg (p : Params) {a : Addr} (h : inRegWindow a = true) :
    decode p (readSel .word a) = .ok (decodeRegWord false a 0#32) := by
  rw [decode_readSel, decodeAccess_window_word _ _ h]

theorem decode_writeReg (p : Params) {a : Addr} (wdata : Word) (h : inRegWindow a = true) :
    decode p (writeSel .word a wdata) = .ok (decodeRegWord true a wdata) := by
  rw [decode_writeSel, decodeAccess_window_word _ _ h]

/-- Past the five writable registers a write keeps its address, and the address says which row. -/
theorem decodeRegWord_write_pastWritable {a : Addr} (wdata : Word) (h : 0x1014 ≤ a.toNat) :
    decodeRegWord true a wdata =
      if 0x408 ≤ a.toNat / 4 ∧ a.toNat / 4 < 0x410 then .resWrLow a wdata
      else if 0x410 ≤ a.toNat / 4 ∧ a.toNat / 4 < 0x418 then .resWrHigh a wdata
      else .rsvdWr a wdata := by
  unfold decodeRegWord
  split
  case h_1 | h_2 | h_3 | h_4 | h_5 => omega
  case h_6 => rfl
  all_goals contradiction

theorem decodeRegWord_read_reserved {a : Addr} (wdata : Word) (h : inReserved a = true) :
    decodeRegWord false a wdata = .rsvdRd a := by
  rw [inReserved_iff] at h
  unfold decodeRegWord
  split
  case h_1 | h_2 | h_3 | h_4 | h_5 | h_6 => contradiction
  case h_28 => rfl
  all_goals omega

/-! ### Decode undoes encode -/

/-- Settles O2: an engine row and a protocol byte are decoded by name and by value; a host transaction's selector gives
back SIZE, WE and ADDR, and the address range of its row then selects the row. -/
theorem decodeEncodeRoundTrip : Obligations.DecodeEncodeRoundTrip := by
  intro p i hi
  cases i with
  | decode | decEth | decIpv4 | decTcp | decUdp | engineComplete | dispatchTcp | dispatchUdp => rfl
  | dispatchUnknown q =>
    have hq : q ≠ 6#8 ∧ q ≠ 17#8 := by simpa [Instr.wellFormed] using hi
    exact congrArg Except.ok (decodeProto8_unknown hq.1 hq.2)
  | halfRefused we a | size11Refused we a => simp [encode, decode, decodeHt_eq_byFields, decodeByFields]
  | bufRd8 a => rw [encode, decode_readSel, decodeAccess_buffer_byte _ _ hi]; rfl
  | bufRd32 a => rw [encode, decode_readSel, decodeAccess_buffer_word _ _ hi]; rfl
  | bufWr8 a data =>
    rw [encode, decode_writeSel, decodeAccess_buffer_byte _ _ hi, extractLsb'_setWidth_word data (by decide)]; rfl
  | bufWr32 a data => rw [encode, decode_writeSel, decodeAccess_buffer_word _ _ hi]; rfl
  | regByteRd a => rw [encode, decode_readSel, decodeAccess_window_byte _ _ hi]; rfl
  | regByteWr a data =>
    rw [encode, decode_writeSel, decodeAccess_window_byte _ _ hi, extractLsb'_setWidth_word data (by decide)]; rfl
  | unmappedRd width a => rw [encode, decode_readSel, decodeAccess_unmapped _ _ _ hi]; rfl
  | unmappedWr width a data => rw [encode, decode_writeSel, decodeAccess_unmapped _ _ _ hi]; rfl
  | ctrlSrst => exact decode_writeReg p _ (by decide)
  | ctrlStart irqEn | ctrlWr irqEn => cases irqEn <;> exact decode_writeReg p _ (by decide)
  | statusWr data | tsLoWr data | tsHiWr data => exact decode_writeReg p data (by decide)
  | lenWr len =>
    exact (decode_writeReg p _ (by decide)).trans
      (congrArg (fun v => Except.ok (Instr.lenWr v)) (extractLsb'_setWidth_word len (by decide)))
  | ctrlRd | statusRd | lenRd | tsLoRd | tsHiRd | resTsLoRd | resTsHiRd | dstMacHiRd | dstMacLoRd | srcMacHiRd
  | srcMacLoRd | ipInfoRd | srcIpRd | dstIpRd | l4InfoRd | portsRd | tcpSeqRd | tcpAckRd | udpLenCsumRd | region0Rd
  | region1Rd => exact decode_readReg p (by decide)
  | resWrLow a data =>
    have ha : 0x1020 ≤ a.toNat ∧ a.toNat < 0x1040 := by simpa [Instr.wellFormed] using hi
    rw [encode, decode_writeReg p data ((inRegWindow_iff a).2 (by omega)),
      decodeRegWord_write_pastWritable data (by omega), if_pos (by omega)]
  | resWrHigh a data =>
    have ha : 0x1040 ≤ a.toNat ∧ a.toNat < 0x1060 := by simpa [Instr.wellFormed] using hi
    rw [encode, decode_writeReg p data ((inRegWindow_iff a).2 (by omega)),
      decodeRegWord_write_pastWritable data (by omega), if_neg (by omega), if_pos (by omega)]
  | rsvdRd a => rw [encode, decode_readReg p (inRegWindow_of_inReserved hi), decodeRegWord_read_reserved _ hi]
  | rsvdWr a data =>
    have ha := (inReserved_iff a).1 hi
    rw [encode, decode_writeReg p data (inRegWindow_of_inReserved hi),
      decodeRegWord_write_pastWritable data (by omega), if_neg (by omega), if_neg (by omega)]

end Sys2Proof.Machine
end

section
/-! PROOF. The four codecs of spec/40: the failures in their order and the fields of a success (R100 to R103), and which
bytes of the frame they read (R105, R106). -/

namespace Sys2Proof.Machine

/-! ### Each codec by its checks -/

section

variable {b : Nat → Byte} {n m l4 r : Nat}

theorem decEth_of_short (h : n < 14) : decEth b n = .fail .truncatedFrame .eth := if_pos h

theorem decEth_of_fits (h : 14 ≤ n) : decEth b n = .ok { dstMac := mac48 b 0, srcMac := mac48 b 6 } :=
  if_neg (by omega)

/-- The header length DEC_IPV4 checks is 4 × IHL (R101). -/
theorem scaleWords_lowNibble_ihl : (scaleWords (lowNibble (b 14))).toNat = 4 * frameIhl b := by
  rw [scaleWords_toNat, lowNibble_toNat]
  rfl

theorem decIpv4_of_short (h : m < 20) : decIpv4 b m = .fail .truncatedFrame .ipv4 := if_pos h

theorem decIpv4_of_badLength (hm : 20 ≤ m) (h : frameIhl b < 5 ∨ m < 4 * frameIhl b) :
    decIpv4 b m = .fail .invalidHeaderLength .ipv4 := by
  simp only [decIpv4, scaleWords_lowNibble_ihl]
  rw [if_neg (by omega), if_pos (by omega)]

theorem decIpv4_of_fits (hm : 20 ≤ m) (h5 : 5 ≤ frameIhl b) (hle : 4 * frameIhl b ≤ m) :
    decIpv4 b m = .ok { ver := highNibble (b 14), ihl := lowNibble (b 14), hlen := scaleWords (lowNibble (b 14)),
                        protocol := b 23, srcIp := be32 b 26, dstIp := be32 b 30 } := by
  simp only [decIpv4, scaleWords_lowNibble_ihl]
  rw [if_neg (by omega), if_neg (by omega)]

/-- The header length DEC_TCP checks is 4 × the data offset (R102). -/
theorem scaleWords_highNibble_dataOffset :
    (scaleWords (highNibble (b (l4 + 12)))).toNat = 4 * tcpDataOffset b l4 := by
  rw [scaleWords_toNat, highNibble_toNat]
  rfl

theorem decTcp_of_short (h : r < 20) : decTcp b l4 r = .fail .truncatedFrame .tcp := if_pos h

theorem decTcp_of_badLength (hr : 20 ≤ r) (h : tcpDataOffset b l4 < 5 ∨ r < 4 * tcpDataOffset b l4) :
    decTcp b l4 r = .fail .invalidHeaderLength .tcp := by
  simp only [decTcp, scaleWords_highNibble_dataOffset]
  rw [if_neg (by omega), if_pos (by omega)]

theorem decTcp_of_fits (hr : 20 ≤ r) (h5 : 5 ≤ tcpDataOffset b l4) (hle : 4 * tcpDataOffset b l4 ≤ r) :
    decTcp b l4 r = .ok { srcPort := be16 b l4, dstPort := be16 b (l4 + 2), seq := be32 b (l4 + 4),
                          ack := be32 b (l4 + 8), doff := highNibble (b (l4 + 12)),
                          tlen := scaleWords (highNibble (b (l4 + 12))) } := by
  simp only [decTcp, scaleWords_highNibble_dataOffset]
  rw [if_neg (by omega), if_neg (by omega)]
  rfl

theorem decUdp_of_short (h : r < 8) : decUdp b l4 r = .fail .truncatedFrame .udp := if_pos h

theorem decUdp_of_fits (h : 8 ≤ r) :
    decUdp b l4 r = .ok { srcPort := be16 b l4, dstPort := be16 b (l4 + 2), length := be16 b (l4 + 4),
                          checksum := be16 b (l4 + 6) } :=
  if_neg (by omega)

end

/-- Settles O36, by the length check. -/
theorem ethernetCodec : Obligations.EthernetCodec := fun b _ =>
  ⟨decEth_of_short, fun h => ⟨_, decEth_of_fits h, holdsBytes_mac48 b 0, holdsBytes_mac48 b 6⟩⟩

/-- Settles O37, by the two checks in their order. -/
theorem ipv4Codec : Obligations.Ipv4Codec := fun b _ =>
  ⟨decIpv4_of_short, decIpv4_of_badLength, fun hm h5 hle =>
    ⟨_, decIpv4_of_fits hm h5 hle, highNibble_toNat _, lowNibble_toNat _, scaleWords_lowNibble_ihl, rfl,
      holdsBytes_be32 b 26, holdsBytes_be32 b 30⟩⟩

/-- Settles O38, by the two checks in their order. -/
theorem tcpCodec : Obligations.TcpCodec := fun b l4 _ =>
  ⟨decTcp_of_short, decTcp_of_badLength, fun hr h5 hle =>
    ⟨_, decTcp_of_fits hr h5 hle, holdsBytes_be16 b l4, holdsBytes_be16 b (l4 + 2), holdsBytes_be32 b (l4 + 4),
      holdsBytes_be32 b (l4 + 8), highNibble_toNat _, scaleWords_highNibble_dataOffset⟩⟩

/-- Settles O39, by the length check. -/
theorem udpCodec : Obligations.UdpCodec := fun b l4 _ =>
  ⟨decUdp_of_short, fun h => ⟨_, decUdp_of_fits h, holdsBytes_be16 b l4, holdsBytes_be16 b (l4 + 2),
    holdsBytes_be16 b (l4 + 4), holdsBytes_be16 b (l4 + 6)⟩⟩

/-! ### Two frames that hold the same bytes -/

/-- The frames `b` and `c` hold the same `count` bytes from offset `o` on. -/
def SameBytes (b c : Nat → Byte) (o count : Nat) : Prop := ∀ k, k < count → b (o + k) = c (o + k)

section

variable {b c : Nat → Byte}

theorem SameBytes.part {o count : Nat} (h : SameBytes b c o count) (i k : Nat) (hik : i + k ≤ count) :
    SameBytes b c (o + i) k := by
  intro j hj
  rw [Nat.add_assoc]
  exact h (i + j) (by omega)

/-- Frames that agree below a bound hold the same bytes wherever they lie below it. -/
theorem sameBytes_of_lt {bound : Nat} (h : ∀ i, i < bound → b i = c i) (o count : Nat) (hfit : o + count ≤ bound) :
    SameBytes b c o count := fun k _ => h (o + k) (by omega)

theorem SameBytes.be16_eq {o : Nat} (h : SameBytes b c o 2) : be16 b o = be16 c o := by
  have h0 : b o = c o := h 0 (by decide)
  simp only [be16, h0, h 1 (by decide)]

theorem SameBytes.be32_eq {o : Nat} (h : SameBytes b c o 4) : be32 b o = be32 c o := by
  have h0 : b o = c o := h 0 (by decide)
  simp only [be32, h0, h 1 (by decide), h 2 (by decide), h 3 (by decide)]

theorem SameBytes.mac48_eq {o : Nat} (h : SameBytes b c o 6) : mac48 b o = mac48 c o := by
  have h0 : b o = c o := h 0 (by decide)
  simp only [mac48, h0, h 1 (by decide), h 2 (by decide), h 3 (by decide), h 4 (by decide), h 5 (by decide)]

/-! ### A codec on two frames that hold the same bytes where it reads (R105, R106)

The bytes need be the same only where the length check passes: a codec that fails it reads none. -/

theorem decEth_congr {n : Nat} (h : 14 ≤ n → SameBytes b c 0 12) : decEth b n = decEth c n := by
  by_cases hn : n < 14
  · rw [decEth_of_short hn, decEth_of_short hn]
  · have hsame := h (by omega)
    have hdst : mac48 b 0 = mac48 c 0 := (hsame.part 0 6 (by decide)).mac48_eq
    have hsrc : mac48 b 6 = mac48 c 6 := (hsame.part 6 6 (by decide)).mac48_eq
    simp only [decEth, hdst, hsrc]

theorem decIpv4_congr {m : Nat} (h : 20 ≤ m → b 14 = c 14 ∧ b 23 = c 23 ∧ SameBytes b c 26 8) :
    decIpv4 b m = decIpv4 c m := by
  by_cases hm : m < 20
  · rw [decIpv4_of_short hm, decIpv4_of_short hm]
  · obtain ⟨hvihl, hprotocol, haddr⟩ := h (by omega)
    have hsrc : be32 b 26 = be32 c 26 := (haddr.part 0 4 (by decide)).be32_eq
    have hdst : be32 b 30 = be32 c 30 := (haddr.part 4 4 (by decide)).be32_eq
    simp only [decIpv4, Nat.reduceAdd, hvihl, hprotocol, hsrc, hdst]

theorem decTcp_congr {l4 r : Nat} (h : 20 ≤ r → SameBytes b c l4 12 ∧ tcpDataOffset b l4 = tcpDataOffset c l4) :
    decTcp b l4 r = decTcp c l4 r := by
  by_cases hr : r < 20
  · rw [decTcp_of_short hr, decTcp_of_short hr]
  · obtain ⟨hsame, hoffset⟩ := h (by omega)
    have hdoff : highNibble (b (l4 + 12)) = highNibble (c (l4 + 12)) :=
      BitVec.eq_of_toNat_eq (by rw [highNibble_toNat, highNibble_toNat]; exact hoffset)
    simp only [decTcp, hdoff, (hsame.part 0 2 (by decide)).be16_eq, (hsame.part 2 2 (by decide)).be16_eq,
      (hsame.part 4 4 (by decide)).be32_eq, (hsame.part 8 4 (by decide)).be32_eq]

theorem decUdp_congr {l4 r : Nat} (h : 8 ≤ r → SameBytes b c l4 8) : decUdp b l4 r = decUdp c l4 r := by
  by_cases hr : r < 8
  · rw [decUdp_of_short hr, decUdp_of_short hr]
  · have hsame := h (by omega)
    simp only [decUdp, (hsame.part 0 2 (by decide)).be16_eq, (hsame.part 2 2 (by decide)).be16_eq,
      (hsame.part 4 2 (by decide)).be16_eq, (hsame.part 6 2 (by decide)).be16_eq]

/-! ### The same of the dispatch and of DECODE -/

theorem andThen_congr {α β : Type} {x y : Result α} {f g : α → Result β} (hxy : x = y)
    (hfg : ∀ v, x = .ok v → f v = g v) : x.andThen f = y.andThen g := by
  subst hxy
  cases x with
  | ok v => exact hfg v rfl
  | fail k l => rfl

theorem dispatch_congr {protocol : Byte} {l4 r : Nat}
    (htcp : protocol = 6#8 → 20 ≤ r → SameBytes b c l4 12 ∧ tcpDataOffset b l4 = tcpDataOffset c l4)
    (hudp : protocol = 17#8 → 8 ≤ r → SameBytes b c l4 8) :
    dispatch b protocol l4 r = dispatch c protocol l4 r := by
  unfold dispatch
  split_ifs with h6 h17
  · exact andThen_congr (decTcp_congr (htcp h6)) fun _ _ => rfl
  · exact andThen_congr (decUdp_congr (hudp h17)) fun _ _ => rfl
  · rfl

/-- The protocol byte of a decoded IPv4 header is the frame's own (R101). -/
theorem decIpv4_protocol {m : Nat} {h : IpHeader} (e : decIpv4 b m = .ok h) : h.protocol = b 23 := by
  obtain ⟨-, -, -, rfl⟩ := decIpv4_ok e
  rfl

theorem decodeFrame_congr {n : Nat} (ts : BitVec 64) (heth : 14 ≤ n → SameBytes b c 0 12)
    (hip : 34 ≤ n → b 14 = c 14 ∧ b 23 = c 23 ∧ SameBytes b c 26 8)
    (htcp : b 23 = 6#8 → 20 ≤ n - frameL4 b →
      SameBytes b c (frameL4 b) 12 ∧ tcpDataOffset b (frameL4 b) = tcpDataOffset c (frameL4 b))
    (hudp : b 23 = 17#8 → 8 ≤ n - frameL4 b → SameBytes b c (frameL4 b) 8) :
    decodeFrame b n ts = decodeFrame c n ts := by
  refine andThen_congr (decEth_congr heth) fun eth _ => ?_
  refine andThen_congr (decIpv4_congr fun hm => hip (by omega)) fun ip hdec => ?_
  have hl4 : 14 + ip.hlen.toNat = frameL4 b := congrArg (14 + ·) (decIpv4_hlen hdec)
  refine andThen_congr ?_ fun _ _ => rfl
  rw [hl4, decIpv4_protocol hdec]
  exact dispatch_congr htcp hudp

end

/-- Settles O40: the bytes a codec reads lie at or below its highest index, and where its check passes below n. -/
theorem noByteReadPastFrame : Obligations.NoByteReadPastFrame := by
  intro b c n l4 ts
  refine ⟨fun h => ?_, fun h => ?_, fun h => ?_, fun h => ?_, fun h => ?_, fun h => ?_, fun h => ?_, fun h => ?_,
    fun h => ?_⟩
  · exact decEth_congr (by omega)
  · exact decEth_congr fun _ k hk => h _ (by omega)
  · exact decIpv4_congr (by omega)
  · exact decIpv4_congr fun _ => ⟨h _ (by omega), h _ (by omega), fun k hk => h _ (by omega)⟩
  · exact decTcp_congr (by omega)
  · exact decTcp_congr fun _ => ⟨fun k hk => h _ (by omega), congrArg (·.toNat / 16) (h _ le_rfl)⟩
  · exact decUdp_congr (by omega)
  · exact decUdp_congr fun _ k hk => h _ (by omega)
  · exact decodeFrame_congr ts (fun _ => sameBytes_of_lt h 0 12 (by omega))
      (fun _ => ⟨h 14 (by omega), h 23 (by omega), sameBytes_of_lt h 26 8 (by omega)⟩)
      (fun _ _ => ⟨sameBytes_of_lt h _ 12 (by omega), congrArg (·.toNat / 16) (h (frameL4 b + 12) (by omega))⟩)
      (fun _ _ => sameBytes_of_lt h _ 8 (by omega))

/-- Settles O41: the bytes in the hypotheses are those the codecs read. -/
theorem unreadBytesDoNotMatter : Obligations.UnreadBytesDoNotMatter := by
  intro b c n ts hmacs hvihl hprotocol haddr htcp hudp
  exact decodeFrame_congr ts (fun _ k hk => hmacs _ (by omega))
    (fun _ => ⟨hvihl, hprotocol, fun k hk => haddr _ (by omega) (by omega)⟩) (fun h6 _ => htcp h6)
    (fun h17 _ => hudp h17)

end Sys2Proof.Machine
end

section
/-! PROOF. The engine rows taken alone (log 5): what they keep, and what they leave in the engine's named values. -/

namespace Sys2Proof.Machine

/-! ### A later codec goes on only when no failure is recorded (R127) -/

theorem EngineVars.unlessFailed_of_failed {v : EngineVars} (f : EngineVars → EngineVars) (h : v.failure ≠ none) :
    v.unlessFailed f = v := by
  cases hf : v.failure with
  | none => exact absurd hf h
  | some _ => simp only [unlessFailed, hf]

theorem EngineVars.unlessFailed_of_none {v : EngineVars} (f : EngineVars → EngineVars) (h : v.failure = none) :
    v.unlessFailed f = f v := by
  simp only [unlessFailed, h]

/-! ### A transport row -/

section

variable {b : Nat → Byte} {l4 r : Nat} {k : ErrKind} {l : Layer}

theorem dispatchTcp_of_ok {h : TcpHeader} (e : decTcp b l4 r = .ok h) : dispatchTcp b l4 r = .ok (.tcp h) := by
  rw [dispatchTcp, e, andThen_ok]

theorem dispatchTcp_of_fail (e : decTcp b l4 r = .fail k l) : dispatchTcp b l4 r = .fail k l := by
  rw [dispatchTcp, e, andThen_fail]

theorem dispatchUdp_of_ok {h : UdpHeader} (e : decUdp b l4 r = .ok h) : dispatchUdp b l4 r = .ok (.udp h) := by
  rw [dispatchUdp, e, andThen_ok]

theorem dispatchUdp_of_fail (e : decUdp b l4 r = .fail k l) : dispatchUdp b l4 r = .fail k l := by
  rw [dispatchUdp, e, andThen_fail]

end

/-- A row that evaluates a codec with answer `x` unless a failure is recorded: it keeps all but the named values and the
draw counter, and leaves `leave h` after a success with `h`, and nothing but the failure after a failure. -/
theorem exec_guardedRow {α : Type} {i : Instr} {s : State} {f : (Nat → Byte) → Nat → EngineVars → EngineVars}
    {x : Result α} {leave : α → EngineVars}
    (hrow : exec i s = .next (s.evaluate fun b n v => v.unlessFailed (f b n)))
    (hfail : ∀ k l, x = .fail k l → f s.byteAt s.frameLen.toNat s.engine = EngineVars.failed k l)
    (hok : ∀ h, x = .ok h → f s.byteAt s.frameLen.toNat s.engine = leave h) :
    ∃ t, exec i s = .next t ∧ t = { s with engine := t.engine, draws := t.draws } ∧
      s.draws + s.frameLen.toNat < t.draws ∧
      (s.engine.failure ≠ none → t.engine = s.engine) ∧
      (s.engine.failure = none → ∀ k l, x = .fail k l → t.engine = EngineVars.failed k l) ∧
      (s.engine.failure = none → ∀ h, x = .ok h → t.engine = leave h) :=
  ⟨_, hrow, rfl, s.evaluate_draws_past _, EngineVars.unlessFailed_of_failed _,
    fun hnone k l e => (EngineVars.unlessFailed_of_none _ hnone).trans (hfail k l e),
    fun hnone h e => (EngineVars.unlessFailed_of_none _ hnone).trans (hok h e)⟩

/-- Settles O52: both rows are guarded rows of DEC_TCP. -/
theorem tcpRowsReadTheTransportRegion : Obligations.TcpRowsReadTheTransportRegion := fun s =>
  ⟨exec_guardedRow rfl (fun _ _ e => congrArg s.engine.setTransport (dispatchTcp_of_fail e))
      (fun _ e => congrArg s.engine.setTransport (dispatchTcp_of_ok e)),
    exec_guardedRow rfl (fun _ _ e => congrArg (s.engine.setDispatched s.frameLen.toNat) (dispatchTcp_of_fail e))
      (fun _ e => congrArg (s.engine.setDispatched s.frameLen.toNat) (dispatchTcp_of_ok e))⟩

/-- Settles O53: both rows are guarded rows of DEC_UDP. -/
theorem udpRowsReadTheTransportRegion : Obligations.UdpRowsReadTheTransportRegion := fun s =>
  ⟨exec_guardedRow rfl (fun _ _ e => congrArg s.engine.setTransport (dispatchUdp_of_fail e))
      (fun _ e => congrArg s.engine.setTransport (dispatchUdp_of_ok e)),
    exec_guardedRow rfl (fun _ _ e => congrArg (s.engine.setDispatched s.frameLen.toNat) (dispatchUdp_of_fail e))
      (fun _ e => congrArg (s.engine.setDispatched s.frameLen.toNat) (dispatchUdp_of_ok e))⟩

/-- Settles O51: DEC_ETH begins a new record; DEC_IPV4 is a guarded row, and both codecs answer as O36 and O37 say. -/
theorem ethernetAndIpv4RowsReadTheFrame : Obligations.EthernetAndIpv4RowsReadTheFrame := by
  intro s
  obtain ⟨hethShort, hethFits⟩ := ethernetCodec s.byteAt s.frameLen.toNat
  obtain ⟨hipShort, hipLength, hipFits⟩ := ipv4Codec s.byteAt (s.frameLen.toNat - 14)
  refine ⟨⟨_, rfl, rfl, s.evaluate_draws_past _, fun hn => ?_, fun hn => ?_⟩, ?_⟩
  · exact congrArg EngineVars.setEth (hethShort hn)
  · obtain ⟨h, hdec, hdst, hsrc⟩ := hethFits hn
    exact ⟨h, hdec, congrArg EngineVars.setEth hdec, hdst, hsrc⟩
  · obtain ⟨t, ht, hframe, hdraws, hfailed, hfail, hok⟩ := exec_guardedRow (i := .decIpv4) (s := s) rfl
      (fun _ _ e => congrArg s.engine.setIp e) (fun _ e => congrArg s.engine.setIp e)
    refine ⟨t, ht, hframe, hdraws, hfailed, fun hnone hm => hfail hnone _ _ (hipShort hm),
      fun hnone hm hlen => hfail hnone _ _ (hipLength hm hlen), fun hnone hm h5 hle => ?_⟩
    obtain ⟨h, hdec, hfields⟩ := hipFits hm h5 hle
    exact ⟨h, hdec, hok hnone h hdec, hfields⟩

end Sys2Proof.Machine
end

section
/-! PROOF. DECODE in sequence (R120 to R128): the first failure ends it, and a packet is assembled from the three
headers; the ranges of its arithmetic (R133). -/

namespace Sys2Proof.Machine

/-! ### The layers in order -/

section

variable {b : Nat → Byte} {n : Nat} {eth : EthHeader} {ip : IpHeader} {k : ErrKind} {l : Layer}

/-- Step 5 of DECODE: the packet of an n-byte frame with these headers (R120, R123, R128). -/
def Packet.assemble (n : Nat) (ts : BitVec 64) (eth : EthHeader) (ip : IpHeader) (transport : Transport) : Packet :=
  { eth, ip, transport, l4 := 14 + ip.hlen.toNat, poff := 14 + ip.hlen.toNat + transport.hlen.toNat,
    plen := n - (14 + ip.hlen.toNat + transport.hlen.toNat), ts }

theorem decodeFrame_of_eth_fail (ts : BitVec 64) (heth : decEth b n = .fail k l) :
    decodeFrame b n ts = .fail k l := by
  rw [decodeFrame, heth, andThen_fail]

theorem decodeFrame_of_ip_fail (ts : BitVec 64) (heth : decEth b n = .ok eth)
    (hip : decIpv4 b (n - 14) = .fail k l) : decodeFrame b n ts = .fail k l := by
  rw [decodeFrame, heth, andThen_ok, hip, andThen_fail]

/-- With both headers decoded the dispatch decides (R120, steps 4 and 5). -/
theorem decodeFrame_of_headers (ts : BitVec 64) (heth : decEth b n = .ok eth) (hip : decIpv4 b (n - 14) = .ok ip) :
    decodeFrame b n ts = (dispatch b ip.protocol (14 + ip.hlen.toNat) (n - (14 + ip.hlen.toNat))).andThen
      fun transport => .ok (.assemble n ts eth ip transport) := by
  rw [decodeFrame, heth, andThen_ok, hip, andThen_ok]
  rfl

theorem dispatch_of_tcp {protocol : Byte} (h6 : protocol = 6#8) (l4 r : Nat) :
    dispatch b protocol l4 r = dispatchTcp b l4 r := if_pos h6

theorem dispatch_of_udp {protocol : Byte} (h17 : protocol = 17#8) (l4 r : Nat) :
    dispatch b protocol l4 r = dispatchUdp b l4 r := by
  subst h17
  rfl

theorem dispatch_of_unknown {protocol : Byte} (h6 : protocol ≠ 6#8) (h17 : protocol ≠ 17#8) (l4 r : Nat) :
    dispatch b protocol l4 r = .ok (.unknown protocol) := by
  rw [dispatch, if_neg h6, if_neg h17, dispatchUnknown]

end

/-- Settles O43, by the first layer that fails, and by the protocol class where the first two pass. -/
theorem decodeSequencesLayers : Obligations.DecodeSequencesLayers := by
  intro b n ts
  refine ⟨fun k l heth => decodeFrame_of_eth_fail ts heth, fun eth heth =>
    ⟨fun k l hip => decodeFrame_of_ip_fail ts heth hip, fun ip hip l4 hl4 => ?_⟩⟩
  subst hl4
  rw [decodeFrame_of_headers ts heth hip]
  refine ⟨fun h6 => ?_, fun h17 => ?_, fun h6 h17 => ?_⟩
  · rw [dispatch_of_tcp h6]
    exact ⟨fun k l e => by rw [dispatchTcp_of_fail e, andThen_fail],
      fun h e => by rw [dispatchTcp_of_ok e, andThen_ok]; rfl⟩
  · rw [dispatch_of_udp h17]
    exact ⟨fun k l e => by rw [dispatchUdp_of_fail e, andThen_fail],
      fun h e => by rw [dispatchUdp_of_ok e, andThen_ok]; rfl⟩
  · rw [dispatch_of_unknown h6 h17, andThen_ok]
    rfl

/-! ### The ranges of a successful DECODE (R133) -/

section

variable {b : Nat → Byte} {n l4 r : Nat} {protocol : Byte} {ts : BitVec 64} {p : Packet}

theorem frameIhl_lt (b : Nat → Byte) : frameIhl b < 16 := Nat.mod_lt _ (by decide)

theorem tcpDataOffset_lt (b : Nat → Byte) (l4 : Nat) : tcpDataOffset b l4 < 16 :=
  Nat.div_lt_of_lt_mul (b (l4 + 12)).isLt

/-- The header length of a decoded TCP header is the frame's own (R102). -/
theorem decTcp_tlen {h : TcpHeader} (e : decTcp b l4 r = .ok h) : h.tlen.toNat = 4 * tcpDataOffset b l4 := by
  obtain ⟨-, -, -, rfl⟩ := decTcp_ok e
  exact scaleWords_highNibble_dataOffset

theorem Dispatched.decTcp_eq {h : TcpHeader} (d : Dispatched b protocol l4 r (.tcp h)) : decTcp b l4 r = .ok h := by
  cases d with
  | tcp _ _ hd => exact hd

theorem Dispatched.decUdp_eq {h : UdpHeader} (d : Dispatched b protocol l4 r (.udp h)) : decUdp b l4 r = .ok h := by
  cases d with
  | udp _ _ hd => exact hd

theorem DecodedBy.ip_ranges (d : DecodedBy b n ts p) :
    14 ≤ n ∧ 20 ≤ p.ip.hlen.toNat ∧ p.ip.hlen.toNat ≤ 60 ∧ p.ip.hlen.toNat % 4 = 0 ∧ p.ip.hlen.toNat ≤ n - 14 := by
  obtain ⟨-, h20, hfits, -⟩ := decIpv4_ok d.ip
  have hhlen := decIpv4_hlen d.ip
  have hihl := frameIhl_lt b
  exact ⟨(decEth_ok d.eth).1, h20, by omega, by omega, hfits⟩

theorem DecodedBy.tcp_ranges (d : DecodedBy b n ts p) {h : TcpHeader} (ht : p.transport = .tcp h) :
    20 ≤ h.tlen.toNat ∧ h.tlen.toNat ≤ 60 ∧ h.tlen.toNat % 4 = 0 ∧ h.tlen.toNat ≤ n - p.l4 := by
  have hdec := (ht ▸ d.transport).decTcp_eq
  obtain ⟨-, h20, hfits, -⟩ := decTcp_ok hdec
  have htlen := decTcp_tlen hdec
  have hoffset := tcpDataOffset_lt b p.l4
  exact ⟨h20, by omega, by omega, hfits⟩

end

/-- Settles O42: the first part is the invariant's, the second the ranges of the codecs' lengths. -/
theorem decodeArithmeticInRange : Obligations.DecodeArithmeticInRange := by
  refine ⟨fun s hinv hbusy => ⟨hinv.frameFits hbusy, maxFrame_le s.params⟩, fun b n ts p e => ?_⟩
  have d := decodeFrame_ok e
  obtain ⟨h14, h20, h60, hmod, hm⟩ := d.ip_ranges
  obtain ⟨h34, -, hl4le, hpoffle, -⟩ := d.bounds
  have hl4 := d.l4
  have hplen := d.plen
  refine ⟨h14, h20, h60, hmod, hm, hl4, h34, by omega, by omega, d.poff, hpoffle, hplen, by omega,
    fun h ht => d.tcp_ranges ht, fun h ht => ⟨?_, ?_⟩, fun q ht => ?_⟩
  · exact (decUdp_ok (ht ▸ d.transport).decUdp_eq).1
  · rw [d.poff, ht]; rfl
  · rw [d.poff, ht]; rfl

end Sys2Proof.Machine
end

section
/-! PROOF. ENGINE_COMPLETE (R129): what it publishes for a packet and for a failure, and that this is a function of the
frame's bytes, its length and TS (R131). -/

namespace Sys2Proof.Machine

section

variable {s : State} {p : Packet} {k : ErrKind} {l : Layer}

theorem complete_of_ok (h : decodeFrame s.byteAt s.frameLen.toNat s.ts = .ok p) :
    s.complete = (s.publish p.results).engineIdle := by
  rw [State.complete, h]
  rfl

theorem complete_of_fail (h : decodeFrame s.byteAt s.frameLen.toNat s.ts = .fail k l) :
    s.complete = (s.takeFailure k l).engineIdle := by
  rw [State.complete, h]
  rfl

end

/-- A completion writes results, STATUS, the named values and the draw counter, and nothing else (R129). -/
theorem complete_frame (s : State) :
    s.complete = { s with results := s.complete.results, phase := .done, ok := s.complete.ok, err := s.complete.err,
                          layer := s.complete.layer, engine := s.complete.engine, draws := s.complete.draws } := by
  rcases complete_cases s with ⟨p, -, e⟩ | ⟨k, l, -, e⟩ <;> rw [e] <;> rfl

theorem complete_fb (s : State) : s.complete.fb = s.fb := by rw [complete_frame]

theorem complete_frameLen (s : State) : s.complete.frameLen = s.frameLen := by rw [complete_frame]

theorem complete_draws_past (s : State) : s.draws + s.frameLen.toNat < s.complete.draws := by
  rcases complete_cases s with ⟨p, -, e⟩ | ⟨k, l, -, e⟩ <;> rw [e]
  · exact (s.publish p.results).engineIdle_draws_past
  · exact (s.takeFailure k l).engineIdle_draws_past

theorem State.statusWord_takeFailure (s : State) (k : ErrKind) (l : Layer) :
    (s.takeFailure k l).engineIdle.statusWord =
      (layerCode (some l) ++ errCode (some k) ++ 0#1 ++ 0#1 ++ 2#2 : BitVec 12).setWidth 32 := rfl

/-- STATUS after a failure is a sum: the fields of the word do not overlap (R31, R79). -/
theorem State.statusWord_takeFailure_toNat (s : State) (k : ErrKind) (l : Layer) :
    (s.takeFailure k l).engineIdle.statusWord.toNat = 2 + 16 * k.number + 256 * l.number := by
  rw [s.statusWord_takeFailure]
  cases k <;> cases l <;> rfl

/-- Settles O44, by what DECODE returns, and for a packet by the variant of its transport header. -/
theorem engineCompletePublishesDecode : Obligations.EngineCompletePublishesDecode := by
  refine fun s => ⟨fun hready t h => hready ((execEngineComplete_next_iff s).1 ⟨t, h⟩), fun hbusy =>
    ⟨s.complete, exec_engineComplete_of_busy hbusy, complete_frame s, complete_draws_past s, fun k l hfail => ?_,
      fun p hp => ?_⟩⟩
  · rw [complete_of_fail hfail]
    exact ⟨rfl, rfl, rfl, rfl, s.statusWord_takeFailure_toNat k l⟩
  · have d := decodeFrame_ok hp
    obtain ⟨hl4, hpoff, hplen⟩ := d.results_offsets s.frameLen.isLt
    rw [complete_of_ok hp]
    refine ⟨rfl, rfl, rfl, s.statusWord_publish _, ?_⟩
    simp only [State.engineIdle_results, State.publish_results]
    refine ⟨p.results_resTs.trans d.ts, p.results_dstMac, p.results_srcMac, p.results_ipVer, p.results_ipIhl,
      p.results_ipProto, p.results_ipHlen, p.results_srcIp, p.results_dstIp, hl4, hpoff, hplen, fun h ht => ?_,
      fun h ht => ?_, fun q ht => ?_⟩ <;> rw [Packet.results, ht]
    · exact ⟨rfl, rfl, rfl, rfl, rfl, rfl, rfl, rfl, rfl, rfl⟩
    · exact ⟨rfl, rfl, rfl, rfl, rfl, rfl, rfl, rfl, rfl, rfl⟩
    · exact ⟨rfl, rfl, rfl, rfl, rfl, rfl, rfl, rfl, rfl, rfl⟩

/-! ### What the result depends on (R131) -/

/-- DECODE is a function of the n bytes of the frame (R105). -/
theorem decodeFrame_eq_of_sameFrame {b c : Nat → Byte} {n : Nat} (ts : BitVec 64) (h : ∀ i, i < n → b i = c i) :
    decodeFrame b n ts = decodeFrame c n ts := by
  obtain ⟨-, -, -, -, -, -, -, -, hdecode⟩ := noByteReadPastFrame b c n 0 ts
  exact hdecode h

/-- What a completion publishes is a function of what DECODE returns (R129). -/
theorem complete_published_congr {s u : State}
    (h : decodeFrame s.byteAt s.frameLen.toNat s.ts = decodeFrame u.byteAt u.frameLen.toNat u.ts) :
    s.complete.results = u.complete.results ∧ s.complete.statusWord = u.complete.statusWord := by
  cases hu : decodeFrame u.byteAt u.frameLen.toNat u.ts with
  | ok p => rw [complete_of_ok hu, complete_of_ok (h.trans hu)]; exact ⟨rfl, rfl⟩
  | fail k l => rw [complete_of_fail hu, complete_of_fail (h.trans hu)]; exact ⟨rfl, rfl⟩

/-- Settles O48: DECODE answers the same on both frames, so both completions publish the same. -/
theorem resultDependsOnlyOnFrameAndTimestamp : Obligations.ResultDependsOnlyOnFrameAndTimestamp := by
  intro s u hs hu hlen hts hwritten
  refine ⟨s.complete, u.complete, exec_engineComplete_of_busy hs, exec_engineComplete_of_busy hu, ?_⟩
  have hbytes : ∀ i, i < s.frameLen.toNat → s.byteAt i = u.byteAt i := fun i hi => by
    obtain ⟨v, hsv, huv⟩ := hwritten i hi
    rw [s.byteAt_written hsv, u.byteAt_written huv]
  refine complete_published_congr ?_
  rw [← hlen, ← hts]
  exact decodeFrame_eq_of_sameFrame s.ts hbytes

end Sys2Proof.Machine
end

section
/-! PROOF. The views of a published result (R67, R130): adjacent views join to one, and the four of a success make up
the frame. -/

namespace Sys2Proof.Machine

namespace State

variable (s : State)

theorem bytesFrom_add (o m n : Nat) : s.bytesFrom o (m + n) = s.bytesFrom o m ++ s.bytesFrom (o + m) n := by
  induction m generalizing o with
  | zero => rw [Nat.zero_add, Nat.add_zero, bytesFrom, List.nil_append]
  | succ m ih =>
    have ho : o + 1 + m = o + (m + 1) := by omega
    rw [Nat.add_right_comm]
    simp only [bytesFrom, ih, ho, List.cons_append]

/-- What a view holds is the buffer's alone (R67). -/
theorem bytesFrom_of_sameBuffer {t : State} (h : t.fb = s.fb) (o n : Nat) : t.bytesFrom o n = s.bytesFrom o n := by
  induction n generalizing o with
  | zero => rfl
  | succ n ih => simp only [bytesFrom, h, ih]

/-- Two views, the second beginning where the first ends, hold the bytes of the view over both. -/
theorem viewBytes_append {v w : View} (h : w.offset = v.offset + v.length) :
    s.viewBytes v ++ s.viewBytes w = s.viewBytes ⟨v.offset, v.length + w.length⟩ := by
  simp only [viewBytes, bytesFrom_add, h]

/-- The four views of a published result make up the n bytes at whose end its payload ends (R130). -/
theorem viewBytes_tile {limit n : Nat} (h : Published limit s.results)
    (hend : s.results.payloadOff.toNat + s.results.payloadLen.toNat = n) :
    s.viewBytes ethView ++ s.viewBytes s.results.ipView ++ s.viewBytes s.results.transportView ++
      s.viewBytes s.results.payloadView = s.bytesFrom 0 n := by
  have hl4 : s.results.l4Off.toNat = 14 + s.results.ipHlen.toNat := h.l4
  have hpoff : s.results.payloadOff.toNat = s.results.l4Off.toNat + s.results.l4Hlen.toNat := h.poff
  have htransport : s.results.transportView.offset = 0 + (14 + s.results.ipHlen.toNat) :=
    hl4.trans (Nat.zero_add _).symm
  have hpayload : s.results.payloadView.offset = 0 + (14 + s.results.ipHlen.toNat + s.results.l4Hlen.toNat) := by
    rw [Nat.zero_add, ← hl4]
    exact hpoff
  rw [s.viewBytes_append (v := ethView) (w := s.results.ipView) rfl, s.viewBytes_append htransport,
    s.viewBytes_append hpayload]
  refine congrArg (s.bytesFrom 0) ?_
  show 14 + s.results.ipHlen.toNat + s.results.l4Hlen.toNat + s.results.payloadLen.toNat = n
  omega

/-- Up to the end of the payload the transport region is the transport header and the payload (R67). -/
theorem viewBytes_transportRegion {limit : Nat} (h : Published limit s.results)
    (hend : s.results.payloadOff.toNat + s.results.payloadLen.toNat = s.frameLen.toNat) :
    s.viewBytes s.transportRegionView =
      s.viewBytes s.results.transportView ++ s.viewBytes s.results.payloadView := by
  have hpoff : s.results.payloadOff.toNat = s.results.l4Off.toNat + s.results.l4Hlen.toNat := h.poff
  rw [s.viewBytes_append hpoff]
  refine congrArg (s.bytesFrom s.results.l4Off.toNat) ?_
  show s.frameLen.toNat - s.results.l4Off.toNat = s.results.l4Hlen.toNat + s.results.payloadLen.toNat
  omega

end State

theorem TaggedUnion.l4Hlen_of_unknown {r : Results} (h : TaggedUnion r) (hkind : r.l4Kind = .unknown) :
    r.l4Hlen = 0 := by
  rw [TaggedUnion, hkind] at h
  obtain ⟨-, -, -, -, -, -, -, hlen⟩ := h
  exact hlen

/-- A successful completion publishes a result whose payload ends where the frame does (R130). -/
theorem complete_published {s : State} (hok : s.complete.ok = true) :
    Published s.frameLen.toNat s.complete.results ∧
      s.complete.results.payloadOff.toNat + s.complete.results.payloadLen.toNat = s.frameLen.toNat := by
  rcases complete_cases s with ⟨p, hp, e⟩ | ⟨k, l, -, e⟩ <;> rw [e] at hok ⊢
  · have d := decodeFrame_ok hp
    obtain ⟨-, hpoff, hplen⟩ := d.results_offsets s.frameLen.isLt
    obtain ⟨-, -, -, -, hsum⟩ := d.bounds
    refine ⟨d.published s.frameLen.isLt le_rfl, ?_⟩
    rw [State.engineIdle_results, State.publish_results, hpoff, hplen, hsum]
  · cases hok

/-- Settles O49: the offsets are those of a published result, and its views make up the frame. -/
theorem viewsTileTheFrame : Obligations.ViewsTileTheFrame := by
  intro s t hbusy hexec hok
  rw [exec_engineComplete_of_busy hbusy] at hexec
  injection hexec with hexec
  subst hexec
  obtain ⟨hpub, hend⟩ := complete_published hok
  have hpoff := hpub.poff
  have hl4le : s.complete.results.l4Off.toNat ≤ s.frameLen.toNat := by omega
  refine ⟨hpub.l4, hpoff, hend, hpub.union.l4Hlen_of_unknown, ?_, rfl, ?_,
    s.complete.viewBytes_transportRegion hpub (by rw [complete_frameLen]; exact hend)⟩
  · rw [s.complete.viewBytes_tile hpub hend, s.bytesFrom_of_sameBuffer (complete_fb s)]
  · rw [State.transportRegionView, complete_frameLen]
    exact Nat.add_sub_of_le hl4le

end Sys2Proof.Machine
end

section
/-! PROOF. The rows taken one by one in DECODE's order against DECODE (R120 to R128): first on the record, then on the
states, whose draws differ row by row (log 7). -/

namespace Sys2Proof.Machine

/-- Settles O50: DECODE is an evaluation, and DISPATCH_UNKNOWN a guarded row that never fails. -/
theorem decodeAndUnknownRowsReturn : Obligations.DecodeAndUnknownRowsReturn := by
  refine fun s => ⟨⟨_, rfl, rfl, s.evaluate_draws_past _, rfl⟩, fun q => ?_⟩
  obtain ⟨t, ht, hframe, hdraws, hfailed, -, hok⟩ := exec_guardedRow (i := .dispatchUnknown q) (s := s)
    (x := dispatchUnknown q) rfl (fun _ _ e => nomatch e) (fun _ e => congrArg (s.engine.setDispatched _) e)
  exact ⟨t, ht, hframe, hdraws, hfailed, fun hnone => hok hnone _ rfl⟩

/-! ### The codecs read the frame alone (R105) -/

section

variable {b c : Nat → Byte} {n : Nat}

theorem decIpv4_eq_of_sameFrame (h : ∀ i, i < n → b i = c i) : decIpv4 b (n - 14) = decIpv4 c (n - 14) :=
  decIpv4_congr fun hm => ⟨h 14 (by omega), h 23 (by omega), sameBytes_of_lt h 26 8 (by omega)⟩

theorem dispatch_eq_of_sameFrame (h : ∀ i, i < n → b i = c i) (protocol : Byte) (l4 : Nat) :
    dispatch b protocol l4 (n - l4) = dispatch c protocol l4 (n - l4) :=
  dispatch_congr
    (fun _ hr => ⟨sameBytes_of_lt h l4 12 (by omega), congrArg (·.toNat / 16) (h (l4 + 12) (by omega))⟩)
    (fun _ hr => sameBytes_of_lt h l4 8 (by omega))

end

/-! ### The record after each row -/

/-- The record that DEC_ETH and then DEC_IPV4 leave. -/
def EngineVars.afterHeaders (b : Nat → Byte) (n : Nat) : EngineVars :=
  (EngineVars.setEth (decEth b n)).unlessFailed fun v => v.setIp (decIpv4 b (n - 14))

/-- What the dispatch that protocol byte `q` selects makes of a record. -/
def EngineVars.afterDispatch (b : Nat → Byte) (n : Nat) (q : Byte) (v : EngineVars) : EngineVars :=
  v.unlessFailed fun v => v.setDispatched n (dispatch b q v.l4 (n - v.l4))

section

variable {b : Nat → Byte} {n : Nat} {eth : EthHeader} {ip : IpHeader} {k : ErrKind} {l : Layer}

/-- The record of a decode whose two headers are decoded, the transport not yet. -/
def EngineVars.ofHeaders (eth : EthHeader) (ip : IpHeader) : EngineVars :=
  { EngineVars.cleared with eth := some eth, ip := some ip, l4 := 14 + ip.hlen.toNat }

theorem afterHeaders_of_eth_fail (heth : decEth b n = .fail k l) : EngineVars.afterHeaders b n = .failed k l := by
  rw [EngineVars.afterHeaders, heth]
  rfl

theorem afterHeaders_of_ip_fail (heth : decEth b n = .ok eth) (hip : decIpv4 b (n - 14) = .fail k l) :
    EngineVars.afterHeaders b n = .failed k l := by
  rw [EngineVars.afterHeaders, heth, hip]
  rfl

theorem afterHeaders_of_ok (heth : decEth b n = .ok eth) (hip : decIpv4 b (n - 14) = .ok ip) :
    EngineVars.afterHeaders b n = .ofHeaders eth ip := by
  rw [EngineVars.afterHeaders, heth, hip]
  rfl

/-- After a recorded failure the dispatch leaves the record, and step 5 gives the failure (R127). -/
theorem packet_afterDispatch_failed (q : Byte) (ts : BitVec 64) :
    ((EngineVars.failed k l).afterDispatch b n q).packet ts = some (.fail k l) := rfl

/-- After both headers the dispatch goes on from their l4, and step 5 gives its failure or the packet (R120). -/
theorem packet_afterDispatch_ofHeaders (q : Byte) (ts : BitVec 64) :
    ((EngineVars.ofHeaders eth ip).afterDispatch b n q).packet ts =
      some ((dispatch b q (14 + ip.hlen.toNat) (n - (14 + ip.hlen.toNat))).andThen
        fun transport => .ok (.assemble n ts eth ip transport)) := by
  have hrow : (EngineVars.ofHeaders eth ip).afterDispatch b n q = (EngineVars.ofHeaders eth ip).setDispatched n
      (dispatch b q (14 + ip.hlen.toNat) (n - (14 + ip.hlen.toNat))) := EngineVars.unlessFailed_of_none _ rfl
  rw [hrow]
  cases dispatch b q (14 + ip.hlen.toNat) (n - (14 + ip.hlen.toNat)) <;> rfl

/-- The three rows on one frame give what DECODE returns, if `q` is the protocol of the header they leave (R120). -/
theorem packet_afterDispatch_eq_decodeFrame (ts : BitVec 64) {q : Byte}
    (hq : ∀ h, (EngineVars.afterHeaders b n).ip = some h → q = h.protocol) :
    ((EngineVars.afterHeaders b n).afterDispatch b n q).packet ts = some (decodeFrame b n ts) := by
  cases heth : decEth b n with
  | fail k l =>
    rw [decodeFrame_of_eth_fail ts heth, afterHeaders_of_eth_fail heth]
    exact packet_afterDispatch_failed q ts
  | ok eth =>
    cases hip : decIpv4 b (n - 14) with
    | fail k l =>
      rw [decodeFrame_of_ip_fail ts heth hip, afterHeaders_of_ip_fail heth hip]
      exact packet_afterDispatch_failed q ts
    | ok ip =>
      rw [afterHeaders_of_ok heth hip] at hq ⊢
      obtain rfl : q = ip.protocol := hq ip rfl
      rw [decodeFrame_of_headers ts heth hip]
      exact packet_afterDispatch_ofHeaders _ ts

end

/-! ### The rows on states -/

/-- The row that a protocol byte selects dispatches on that byte (R77, R124 to R126). -/
theorem exec_decodeProto8 (q : Byte) (s : State) :
    exec (decodeProto8 q) s = .next (s.evaluate fun b n v => v.afterDispatch b n q) := by
  rw [decodeProto8_eq]
  split_ifs with h6 h17
  · subst h6; rfl
  · subst h17; rfl
  · simp only [EngineVars.afterDispatch, dispatch_of_unknown h6 h17]
    rfl

theorem EngineVars.afterDispatch_eq_of_sameFrame {b c : Nat → Byte} {n : Nat} (h : ∀ i, i < n → b i = c i) (q : Byte)
    (v : EngineVars) : v.afterDispatch b n q = v.afterDispatch c n q := by
  unfold afterDispatch
  simp only [dispatch_eq_of_sameFrame h]

/-- Written bytes of the frame read the same whatever the draws (R23). -/
theorem State.byteAt_eq_of_sameBuffer {s t : State} (hfb : t.fb = s.fb) {i : Nat}
    (hwritten : ∃ v, Memory.read s.fb i = some v) : t.byteAt i = s.byteAt i := by
  obtain ⟨v, hv⟩ := hwritten
  rw [s.byteAt_written hv, t.byteAt_written (hfb ▸ hv)]

/-- Settles O54: every row sees the same frame, and on one frame the rows give what DECODE returns. -/
theorem rowsInOrderEqualDecode : Obligations.RowsInOrderEqualDecode := by
  intro s hwritten
  have hsame {t : State} (hfb : t.fb = s.fb) : ∀ i, i < s.frameLen.toNat → t.byteAt i = s.byteAt i := fun i hi =>
    State.byteAt_eq_of_sameBuffer hfb (hwritten i hi)
  obtain ⟨s1, h1, hfb1, hlen1, hengine1⟩ : ∃ t, exec .decEth s = .next t ∧ t.fb = s.fb ∧ t.frameLen = s.frameLen ∧
      t.engine = .setEth (decEth s.byteAt s.frameLen.toNat) := ⟨_, rfl, rfl, rfl, rfl⟩
  obtain ⟨s2, h2, hfb2, hlen2, hengine2⟩ : ∃ t, exec .decIpv4 s1 = .next t ∧ t.fb = s1.fb ∧
      t.frameLen = s1.frameLen ∧ t.engine = s1.engine.unlessFailed fun v =>
        v.setIp (decIpv4 s1.byteAt (s1.frameLen.toNat - 14)) := ⟨_, rfl, rfl, rfl, rfl⟩
  have hheaders : s2.engine = .afterHeaders s.byteAt s.frameLen.toNat := by
    rw [hengine2, hengine1, hlen1, decIpv4_eq_of_sameFrame (hsame hfb1)]
    rfl
  refine ⟨s1, s2, _, h1, h2, rfl, fun q hq => ⟨_, exec_decodeProto8 q s2, ?_⟩⟩
  rw [hheaders] at hq
  rw [s2.evaluate_engine, hheaders, hlen2, hlen1,
    EngineVars.afterDispatch_eq_of_sameFrame (hsame (hfb2.trans hfb1))]
  exact packet_afterDispatch_eq_decodeFrame s.ts hq

end Sys2Proof.Machine
end

section
/-! PROOF. Host transactions: what a word decodes to by its SIZE, WE and ADDR, and by the register it addresses. -/

namespace Sys2Proof.Machine

/-! ### The fields a mask fixes (R84) -/

/-- A mask of the bits from k on fixes SIZE, WE and the address in units of 2^k. -/
theorem fields_of_topMask {ht P : Selector} {k : Nat} (hk : k ≤ 16) (h : ht &&& (0x7FFFF#19 <<< k) = P) :
    selSize ht = selSize P ∧ selWe ht = selWe P ∧ (selAddr ht).toNat / 2 ^ k = (selAddr P).toNat / 2 ^ k := by
  have hdiv : ht.toNat / 2 ^ k = P.toNat / 2 ^ k := by
    rw [← (and_top_eq ht P k).1 h, Nat.mul_div_cancel _ (Nat.two_pow_pos k)]
  have hsplit : 65536 = 2 ^ k * 2 ^ (16 - k) := by rw [← Nat.pow_add, Nat.add_sub_cancel' hk]
  have htop : ht.toNat / 65536 = P.toNat / 65536 := by
    rw [hsplit, ← Nat.div_div_eq_div_mul, ← Nat.div_div_eq_div_mul, hdiv]
  refine ⟨BitVec.eq_of_toNat_eq ?_, ?_, ?_⟩
  · rw [selSize_toNat, selSize_toNat]
    omega
  · rw [selWe_eq, selWe_eq, htop]
  · rw [selAddr_toNat, selAddr_toNat, hsplit, Nat.mod_mul_right_div_self, Nat.mod_mul_right_div_self, hdiv]

/-! ### A transaction of legal width -/

theorem selWidth_of_size {ht : Selector} {width : Width} (h : selSize ht = sizeCode width) : selWidth ht = width := by
  have hbit : ht.getLsbD 18 = (selSize ht).getLsbD 1 := by simp [selSize]
  rw [selWidth, hbit, h]
  cases width <;> rfl

/-- A transaction of legal width is decoded by its WE and ADDR (R57, R78). -/
theorem decode_access (p : Params) {ht : Selector} {width : Width} (wdata : Word) (h : selSize ht = sizeCode width) :
    decode p (.ht ht wdata) = .ok (decodeAccess p width (selWe ht) (selAddr ht) wdata) := by
  have hlegal : selSize ht ≠ 0b01#2 ∧ selSize ht ≠ 0b11#2 := by rw [h]; cases width <;> decide
  simp [decode, decodeHt_eq_byFields, decodeByFields, hlegal, selWidth_of_size h]

/-- The legal SIZE codes are 00 and 10 (R57). -/
theorem selSize_eq_sizeCode {ht : Selector} (h01 : selSize ht ≠ 0b01#2) (h11 : selSize ht ≠ 0b11#2) :
    selSize ht = sizeCode (selWidth ht) := by
  by_cases h : selSize ht = 0b10#2
  · rw [h, selWidth_of_size (width := .word) h]
    rfl
  · have h00 : selSize ht = 0b00#2 := by
      generalize selSize ht = size at h01 h11 h
      revert size
      decide
    rw [h00, selWidth_of_size (width := .byte) h00]
    rfl

/-! ### A transaction to the register window -/

theorem inRegWindow_iff_div (a : Addr) : inRegWindow a = true ↔ a.toNat / 2 ^ 7 = 32 := by
  rw [inRegWindow_iff]
  omega

section
variable (p : Params) {ht : Selector} {we : Bool} {c : Addr} (wdata : Word)

/-- A mask of the bits from k on, in the register window: the transaction is decoded by its own address, which agrees
with the pattern's in units of 2^k. -/
theorem decode_of_windowMask {width : Width} {k : Nat} (hk : k ≤ 7) (hc : inRegWindow c = true)
    (h : ht &&& (0x7FFFF#19 <<< k) = selector (sizeCode width) we c) :
    inRegWindow (selAddr ht) = true ∧ (selAddr ht).toNat / 2 ^ k = c.toNat / 2 ^ k ∧
      decode p (.ht ht wdata) = .ok (decodeAccess p width we (selAddr ht) wdata) := by
  obtain ⟨hsize, hwe, haddr⟩ := fields_of_topMask (by omega) h
  rw [selSize_selector] at hsize
  rw [selWe_selector] at hwe
  rw [selAddr_selector] at haddr
  refine ⟨?_, haddr, by rw [decode_access p wdata hsize, hwe]⟩
  rw [inRegWindow_iff_div] at hc ⊢
  rw [← Nat.add_sub_cancel' hk, Nat.pow_add, ← Nat.div_div_eq_div_mul] at hc ⊢
  rw [haddr, hc]

/-- The address of a register with a row of its own, which carries no address (R29). -/
abbrev NamedRegister (we : Bool) (c : Addr) : Prop :=
  inRegWindow c = true ∧ inReserved c = false ∧ (we = true → c.toNat < 0x1014)

/-- ADDR[1:0] does not select the register (R56). -/
theorem decodeRegWord_congr {a : Addr} (hc : NamedRegister we c) (h : a.toNat / 4 = c.toNat / 4) :
    decodeRegWord we a wdata = decodeRegWord we c wdata := by
  obtain ⟨hwin, hfree, hwritable⟩ := hc
  rw [inRegWindow_iff] at hwin
  rw [← Bool.not_eq_true, inReserved_iff] at hfree
  unfold decodeRegWord
  rw [h]
  split
  case h_6 =>
    have hlow := hwritable rfl
    simp only [imp_false] at *
    omega
  case h_28 =>
    simp only [imp_false] at *
    omega
  all_goals rfl

/-- A word transaction to a register with a row of its own is decoded by the register. -/
theorem decode_register (hc : NamedRegister we c) (h : ht &&& 0x7FFFC#19 = selector 0b10#2 we c) :
    decode p (.ht ht wdata) = .ok (decodeRegWord we c wdata) := by
  obtain ⟨hwin, haddr, hdecode⟩ := decode_of_windowMask p (width := .word) (k := 2) wdata (by decide) hc.1 h
  rw [hdecode, decodeAccess_window_word _ _ hwin, decodeRegWord_congr wdata hc haddr]

end

end Sys2Proof.Machine
end

section
/-! PROOF. The end of a run (R163), and the registers CTRL, STATUS, FRAME_LEN and TS (R144 to R153). -/

namespace Sys2Proof.Machine

/-! ### Steps and runs -/

theorem exec_engineComplete_of_ready {s : State} (h : s.phase ≠ .busy) (t : State) : exec .engineComplete s ≠ .next t :=
  fun ht => h ((execEngineComplete_next_iff s).1 ⟨t, ht⟩)

theorem State.rest_of_ready {s : State} (h : s.phase ≠ .busy) : s.rest = .next s := by
  cases hp : s.phase with
  | busy => exact absurd hp h
  | idle | done => simp [State.rest, hp]

theorem State.rest_of_busy {s : State} (h : s.phase = .busy) : s.rest = exec .engineComplete s := by
  simp [State.rest, h]

/-- Settles O6, by STATE. -/
theorem stepWithNothingLeft : Obligations.StepWithNothingLeft := fun _ he =>
  ⟨fun hbusy => (step_nil he).trans (State.rest_of_busy hbusy),
    fun hready => (step_nil he).trans (State.rest_of_ready hready)⟩

/-- No operation touches the events still to come. -/
theorem Effect.inputs {i : Instr} {s t : State} (h : Effect i s t) : t.inputs = s.inputs := by
  cases h with
  | stored8 a v => rw [s.storeByte_eq]
  | stored32 a v => rw [s.storeWord_eq]
  | completed => rw [complete_frame]
  | nothing | reply | evaluated | lenSet | tsSet | irqSet | softReset | started => rfl

/-- A step takes one event. -/
theorem step_inputs {s t : State} {e : Event} {later : List Event} (he : s.inputs = e :: later)
    (h : step s = .next t) : t.inputs = later := by
  cases e with
  | hardwareReset => rw [step_hardwareReset_eq he h]; rfl
  | op w =>
    obtain ⟨i, hi⟩ := exists_decode s.params w
    rw [step_op he hi] at h
    exact (exec_effect h).inputs

/-- The step after the last event ends the run. -/
theorem runEnded_of_step_nil {s t : State} (he : s.inputs = []) (h : step s = .next t) : t.runEnded := by
  rw [step_nil he] at h
  by_cases hp : s.phase = .busy
  · rw [State.rest_of_busy hp, exec_engineComplete_of_busy hp] at h
    cases h
    exact ⟨by rw [complete_frame]; exact he, by rw [complete_phase]; decide⟩
  · rw [State.rest_of_ready hp] at h
    cases h
    exact ⟨he, hp⟩

theorem runSteps_succ (k : Nat) (s : State) : runSteps (k + 1) s = thenRun (step s) (runSteps k) := rfl

/-- Settles O7, by induction on the events still to come. -/
theorem runWithoutRefusalEnds : Obligations.RunWithoutRefusalEnds := by
  intro s t h
  generalize hevents : s.inputs = events at h
  induction events generalizing s with
  | nil =>
    obtain ⟨u, hu, ht⟩ := thenRun_eq_next ((runSteps_succ 0 s).symm.trans h)
    cases ht
    exact runEnded_of_step_nil hevents hu
  | cons e later ih =>
    obtain ⟨u, hu, ht⟩ := thenRun_eq_next ((runSteps_succ (later.length + 1) s).symm.trans h)
    exact ih u (step_inputs hevents hu) ht

/-! ### CTRL -/

/-- A word write to CTRL: the bits of WDATA that select among its three rows (R144 to R146). -/
theorem decode_ctrlWrite (p : Params) {ht : Selector} (wdata : Word) (h : ht &&& 0x7FFFC#19 = 0x51000#19) :
    decode p (.ht ht wdata) = .ok (if wdata.getLsbD 1 then .ctrlSrst
      else if wdata.getLsbD 0 then .ctrlStart (wdata.getLsbD 2) else .ctrlWr (wdata.getLsbD 2)) :=
  decode_register (we := true) (c := 0x1000#16) p wdata (by decide) h

/-- The mask 3 gives bits 0 and 1 of WDATA. -/
theorem getLsbD_of_and_three {wdata code : Word} (h : wdata &&& 0x3#32 = code) :
    wdata.getLsbD 0 = code.getLsbD 0 ∧ wdata.getLsbD 1 = code.getLsbD 1 := by
  subst h
  simp

theorem registersZero_softReset (s : State) : RegistersZero s.softReset :=
  ⟨rfl, s.statusWord_softReset, rfl, rfl, rfl, rfl⟩

/-- Settles O11: bit 1 of WDATA alone selects the row, and the two resets write the registers alike. -/
theorem softResetKeepsFrameBuffer : Obligations.SoftResetKeepsFrameBuffer := by
  intro s ht wdata hht hsrst
  have hbit : wdata.getLsbD 1 = true := by simpa using congrArg (BitVec.getLsbD · 1) hsrst
  refine ⟨?_, s.softReset, rfl, registersZero_softReset s, rfl, rfl, rfl, rfl, rfl, rfl, rfl,
    exec_engineComplete_of_ready (s := s.softReset) nofun⟩
  rw [decode_ctrlWrite _ _ hht, if_pos hbit]

/-- CTRL reads as IRQ_EN in bit 2 (R30). -/
theorem State.getLsbD_ctrlWord (s : State) (k : Nat) :
    s.ctrlWord.getLsbD k = (decide (k = 2) && s.irqEn) := by
  unfold ctrlWord
  cases s.irqEn
  · simp
  · have hword : (BitVec.ofBool true).setWidth 32 <<< 2 = BitVec.twoPow 32 2 := by decide
    rw [hword, BitVec.getLsbD_twoPow, Bool.and_true]
    simp [eq_comm]

/-- Settles O17: CTRL_WR is the third of the CTRL rows, and CTRL_RD returns the CTRL word. -/
theorem ctrlWriteAndRead : Obligations.CtrlWriteAndRead := by
  refine fun s ht wdata => ⟨fun hht hcode => ⟨?_, _, rfl, rfl, ?_⟩, fun hht => ⟨?_, _, rfl, rfl,
    fun k _ => s.getLsbD_ctrlWord k⟩⟩
  · obtain ⟨hstart, hsrst⟩ := getLsbD_of_and_three hcode
    rw [decode_ctrlWrite _ _ hht, hstart, hsrst]
    rfl
  · cases s.phase <;> simp [State.irq]
  · exact decode_register (we := false) (c := 0x1000#16) _ _ (by decide) hht

theorem exec_ctrlStart_of_tooLong {s : State} (e : Bool) (h : s.phase ≠ .busy)
    (hlong : s.params.maxFrame < s.frameLen.toNat) : exec (.ctrlStart e) s = .refused .frameTooLong := by
  cases hp : s.phase with
  | busy => exact absurd hp h
  | idle | done => simp [exec, execCtrlStart, State.tryStart, hp, hlong]

/-- A frame of no bytes fails at ETH (R100, R129). -/
theorem statusWord_complete_of_empty {s : State} (h : s.frameLen = 0) : s.complete.statusWord = 0x112#32 := by
  have hfail : decodeFrame s.byteAt s.frameLen.toNat s.ts = .fail .truncatedFrame .eth :=
    decodeFrame_of_eth_fail _ (decEth_of_short (by rw [h]; decide))
  rw [complete_of_fail hfail, State.statusWord_takeFailure]
  rfl

/-- Settles O18: START in its three cases. -/
theorem startBeginsDecode : Obligations.StartBeginsDecode := by
  refine fun s ht wdata hht hcode => ⟨?_, fun hbusy => ⟨_, exec_ctrlStart_of_busy _ hbusy, rfl⟩,
    fun hready hlong => exec_ctrlStart_of_tooLong _ hready hlong, fun hready hfits =>
    ⟨_, _, exec_ctrlStart_of_ready _ hready hfits, rfl, s.statusWord_startDecode _, rfl,
      exec_engineComplete_of_busy rfl, fun hempty => statusWord_complete_of_empty hempty⟩⟩
  obtain ⟨hstart, hsrst⟩ := getLsbD_of_and_three hcode
  rw [decode_ctrlWrite _ _ hht, hstart, hsrst]
  rfl

/-! ### STATUS -/

/-- A zero-extended field has zeros above it. -/
theorem extractLsb'_above_setWidth {n : Nat} (v : BitVec n) (hn : n ≤ 32) :
    (v.setWidth 32).extractLsb' n (32 - n) = 0#(32 - n) := by
  rw [BitVec.setWidth_eq_append hn]
  ext i hi
  simp [BitVec.getLsbD_append]

/-- The fields of the STATUS word (R31, R79). -/
theorem State.statusWord_fields (s : State) :
    s.statusWord.extractLsb' 0 2 = s.phase.code ∧ s.statusWord.getLsbD 2 = s.ok ∧ s.statusWord.getLsbD 3 = false ∧
    s.statusWord.extractLsb' 4 4 = errCode s.err ∧ s.statusWord.extractLsb' 8 4 = layerCode s.layer ∧
    s.statusWord.extractLsb' 12 20 = 0 := by
  unfold statusWord
  refine ⟨?_, ?_, ?_, ?_, ?_, extractLsb'_above_setWidth (n := 12) _ (by decide)⟩
  · rw [BitVec.extractLsb'_setWidth_of_le (by decide)]
    exact BitVec.extractLsb'_append_eq_right
  · simp only [BitVec.getLsbD_setWidth, BitVec.getLsbD_append]
    simp
  · simp only [BitVec.getLsbD_setWidth, BitVec.getLsbD_append]
    simp
  · rw [BitVec.extractLsb'_setWidth_of_le (by decide)]
    simp only [BitVec.extractLsb'_append_eq_of_le, Nat.reduceLeDiff, Nat.reduceSub]
    exact BitVec.extractLsb'_append_eq_right
  · rw [BitVec.extractLsb'_setWidth_of_le (by decide)]
    simp only [BitVec.extractLsb'_append_eq_of_le, Nat.reduceLeDiff, Nat.reduceSub]
    exact BitVec.extractLsb'_eq_self

/-- Settles O19, by the fields of the STATUS word. -/
theorem statusReadReturnsFields : Obligations.StatusReadReturnsFields := by
  intro s ht wdata hht
  obtain ⟨hphase, hok, hzero, herr, hlayer, hhigh⟩ := s.statusWord_fields
  refine ⟨decode_register (we := false) (c := 0x1004#16) _ _ (by decide) hht, s.returns s.statusWord, rfl, rfl,
    hphase.trans ?_, hok, hzero, herr.trans ?_, hlayer.trans ?_, hhigh, Inv.status⟩
  · cases s.phase <;> rfl
  · rcases s.err with _ | k
    · rfl
    · cases k <;> rfl
  · rcases s.layer with _ | l
    · rfl
    · cases l <;> rfl

/-! ### FRAME_LEN and TS -/

/-- Settles O20: LEN is written under the input hazard, and read zero-extended. -/
theorem frameLengthWriteAndRead : Obligations.FrameLengthWriteAndRead := by
  refine fun s ht wdata => ⟨fun hht => ⟨?_, _, rfl, s.unlessBusy_busy _, s.unlessBusy_ready _⟩,
    fun hht => ⟨?_, _, rfl, rfl, ?_⟩⟩
  · exact decode_register (we := true) (c := 0x1008#16) _ _ (by decide) hht
  · exact decode_register (we := false) (c := 0x1008#16) _ _ (by decide) hht
  · exact BitVec.toNat_setWidth_of_le (by decide)

theorem toNat_lowWord {n : Nat} (v : BitVec n) : (v.extractLsb' 0 32).toNat = v.toNat % 2 ^ 32 := by
  rw [BitVec.extractLsb'_toNat, Nat.shiftRight_zero]

/-- The bits from 32 on, where there are at most m of them. -/
theorem toNat_highBits {n m : Nat} (v : BitVec n) (h : n ≤ 32 + m) :
    (v.extractLsb' 32 m).toNat = v.toNat / 2 ^ 32 := by
  have hv : v.toNat < 2 ^ 32 * 2 ^ m := by
    rw [← Nat.pow_add]
    exact Nat.lt_of_lt_of_le v.isLt (Nat.pow_le_pow_right (by decide) h)
  rw [BitVec.extractLsb'_toNat, Nat.shiftRight_eq_div_pow, Nat.mod_eq_of_lt (Nat.div_lt_of_lt_mul hv)]

/-- Settles O21: TS is its two halves. -/
theorem timestampWriteAndRead : Obligations.TimestampWriteAndRead := by
  intro s ht wdata
  refine ⟨fun hht => ⟨decode_register (we := true) (c := 0x100C#16) _ _ (by decide) hht, _, rfl, s.unlessBusy_busy _,
      fun hready => ?_⟩,
    fun hht => ⟨decode_register (we := true) (c := 0x1010#16) _ _ (by decide) hht, _, rfl, s.unlessBusy_busy _,
      fun hready => ?_⟩,
    fun hht => ⟨decode_register (we := false) (c := 0x100C#16) _ _ (by decide) hht, _, rfl, rfl, toNat_lowWord _⟩,
    fun hht => ⟨decode_register (we := false) (c := 0x1010#16) _ _ (by decide) hht, _, rfl, rfl,
      toNat_highBits _ (by decide)⟩⟩
  · rw [s.unlessBusy_ready _ hready]
    exact ⟨rfl, BitVec.extractLsb'_append_eq_right, BitVec.extractLsb'_append_eq_left⟩
  · rw [s.unlessBusy_ready _ hready]
    exact ⟨rfl, BitVec.extractLsb'_append_eq_left, BitVec.extractLsb'_append_eq_right⟩

end Sys2Proof.Machine
end

section
/-! PROOF. Host accesses to the frame buffer (R140 to R143), and the refused sizes (R158). -/

namespace Sys2Proof.Machine

/-! ### Frame-buffer transactions -/

section
variable {p : Params} {ht : Selector} (wdata : Word)

theorem decode_buffer_byte (hsize : selSize ht = 0b00#2) (ha : (selAddr ht).toNat < p.maxFrame) :
    decode p (.ht ht wdata) =
      .ok (if selWe ht then .bufWr8 (selAddr ht) (wdata.extractLsb' 0 8) else .bufRd8 (selAddr ht)) := by
  rw [decode_access p (width := .byte) wdata hsize, decodeAccess_buffer_byte _ _ (decide_eq_true ha)]

theorem decode_buffer_word (hsize : selSize ht = 0b10#2) (ha : (selAddr ht).toNat < p.maxFrame) :
    decode p (.ht ht wdata) = .ok (if selWe ht then .bufWr32 (selAddr ht) wdata else .bufRd32 (selAddr ht)) := by
  rw [decode_access p (width := .word) wdata hsize, decodeAccess_buffer_word _ _ (decide_eq_true ha)]

end

/-- The aligned word of an address in the buffer is in the buffer (R141). -/
theorem alignWord_in_buffer {p : Params} {a : Addr} (ha : a.toNat < p.maxFrame) :
    (alignWord a).toNat + 3 < p.maxFrame := by
  rw [alignWord_toNat]
  exact alignedWord_in_buffer p ha

/-! ### Stores -/

/-- A host write of an input changes only what it writes (R199). -/
theorem State.unlessBusy_eq_withFb (s : State) {f : State → State} (hf : f s = { s with fb := (f s).fb }) :
    s.unlessBusy f = { s with fb := (s.unlessBusy f).fb } := by
  by_cases h : s.phase = .busy
  · rw [s.unlessBusy_busy f h]
  · rw [s.unlessBusy_ready f h]
    exact hf

/-- Settles O12: the store of a byte, under the input hazard. -/
theorem bufferByteWriteStoresOneByte : Obligations.BufferByteWriteStoresOneByte := by
  intro s ht wdata hsize hwe ha
  refine ⟨by rw [decode_buffer_byte wdata hsize ha, hwe]; rfl, _, rfl, s.unlessBusy_eq_withFb (s.storeByte_eq _ _),
    fun hbusy => by rw [s.unlessBusy_busy _ hbusy], fun hready => ?_⟩
  rw [s.unlessBusy_ready _ hready]
  exact ⟨s.read_storeByte_same _ ha, fun x hx => s.read_storeByte_other _ hx⟩

/-- Lane k of a stored word is at w + k (R53). -/
theorem State.read_storeWord_lane (s : State) {w k : Nat} (v : Word) (h : w + 3 < s.params.maxFrame) (hk : k < 4) :
    Memory.read (s.storeWord w v).fb (w + k) = some (lane v k) := by
  rw [s.read_storeWord v h]
  interval_cases k <;> simp

theorem State.read_storeWord_other (s : State) {w x : Nat} (v : Word) (h : w + 3 < s.params.maxFrame)
    (hx : x < w ∨ w + 4 ≤ x) : Memory.read (s.storeWord w v).fb x = Memory.read s.fb x := by
  rw [s.read_storeWord v h, if_neg (by omega), if_neg (by omega), if_neg (by omega), if_neg (by omega)]

/-- Settles O13: the store of a word at the aligned address, under the input hazard. -/
theorem bufferWordWriteStoresFourLanes : Obligations.BufferWordWriteStoresFourLanes := by
  intro s ht wdata hsize hwe ha
  have hw := alignWord_in_buffer ha
  refine ⟨by rw [decode_buffer_word wdata hsize ha, hwe]; rfl, _, rfl, s.unlessBusy_eq_withFb (s.storeWord_eq _ _),
    fun hbusy => by rw [s.unlessBusy_busy _ hbusy], ?_⟩
  rintro hready _ rfl
  rw [s.unlessBusy_ready _ hready]
  exact ⟨fun k hk => s.read_storeWord_lane wdata hw hk, fun x hx => s.read_storeWord_other wdata hw hx⟩

/-! ### Loads -/

/-- Settles O14: the byte is read once, with the draw at the counter. -/
theorem bufferByteReadReturnsByte : Obligations.BufferByteReadReturnsByte := by
  intro s ht wdata hsize hwe ha
  refine ⟨by rw [decode_buffer_byte wdata hsize ha, hwe]; rfl, _, rfl, rfl, Nat.lt_succ_self _, fun v hv => ?_,
    fun hnone => ?_⟩
  · simp only [State.useDraws_rdata, State.returns_rdata, s.loadByte_buffer 0 ha, s.bufferByte_written 0 hv]
  · simp only [State.useDraws_rdata, State.returns_rdata, s.loadByte_buffer 0 ha, s.bufferByte_unwritten 0 hnone,
      Nat.add_zero]

/-- Lane k of a packed word is byte k (R53). -/
theorem lane_packLanes (b : Nat → Byte) {k : Nat} (hk : k < 4) : lane (packLanes (b 0) (b 1) (b 2) (b 3)) k = b k := by
  unfold lane packLanes
  interval_cases k
  · exact BitVec.extractLsb'_append_eq_right
  · rw [BitVec.extractLsb'_append_eq_of_le (by decide)]
    exact BitVec.extractLsb'_append_eq_right
  · rw [BitVec.extractLsb'_append_eq_of_le (by decide), BitVec.extractLsb'_append_eq_of_le (by decide)]
    exact BitVec.extractLsb'_append_eq_right
  · rw [BitVec.extractLsb'_append_eq_of_le (by decide), BitVec.extractLsb'_append_eq_of_le (by decide)]
    exact BitVec.extractLsb'_append_eq_left

/-- Settles O15: the four bytes of the aligned word, each read with a draw index of its own. -/
theorem bufferWordReadReturnsFourBytes : Obligations.BufferWordReadReturnsFourBytes := by
  intro s ht wdata hsize hwe ha
  have hw := alignWord_in_buffer ha
  refine ⟨by rw [decode_buffer_word wdata hsize ha, hwe]; rfl, _, rfl, rfl, Nat.le_refl _, ?_⟩
  rintro k hk _ rfl
  have hlane := lane_packLanes (fun k => s.loadByte k ((alignWord (selAddr ht)).toNat + k)) hk
  have hload := s.loadByte_buffer k (a := (alignWord (selAddr ht)).toNat + k) (by omega)
  exact ⟨fun v hv => hlane.trans (hload.trans (s.bufferByte_written k hv)),
    fun hnone => hlane.trans (hload.trans (s.bufferByte_unwritten k hnone))⟩

/-! ### Refused sizes -/

/-- Settles O35: SIZE is looked at before all else. -/
theorem oddSizesAreRefused : Obligations.OddSizesAreRefused := by
  refine fun s ht wdata => ⟨fun hsize => ⟨?_, rfl⟩, fun hsize => ⟨?_, rfl⟩⟩
  all_goals simp [decode, decodeHt_eq_byFields, decodeByFields, hsize]

end Sys2Proof.Machine
end

section
/-! PROOF. The accesses without an effect (R155 to R157, R159, R160), and the reads of the result registers (R154). -/

namespace Sys2Proof.Machine

/-! ### Accesses without an effect -/

section
variable (p : Params) {ht : Selector} {we : Bool} (wdata : Word)

/-- The mask of R159 and R160 fixes SIZE 00 and the register window. -/
theorem decode_windowByte (h : ht &&& 0x7FF80#19 = selector 0b00#2 we 0x1000#16) :
    decode p (.ht ht wdata) =
      .ok (if we then .regByteWr (selAddr ht) (wdata.extractLsb' 0 8) else .regByteRd (selAddr ht)) := by
  obtain ⟨hwin, -, hdecode⟩ := decode_of_windowMask p (width := .byte) (k := 7) wdata (by decide) (by decide) h
  rw [hdecode, decodeAccess_window_byte _ _ hwin]

/-- The mask of the two RES_WR rows fixes eight registers (R155). -/
theorem decode_resultWrite {c : Addr} (hc : inRegWindow c = true ∧ 0x1020 ≤ c.toNat)
    (h : ht &&& 0x7FFE0#19 = selector 0b10#2 true c) :
    (selAddr ht).toNat / 32 = c.toNat / 32 ∧
      decode p (.ht ht wdata) = .ok
        (if 0x408 ≤ (selAddr ht).toNat / 4 ∧ (selAddr ht).toNat / 4 < 0x410 then .resWrLow (selAddr ht) wdata
        else if 0x410 ≤ (selAddr ht).toNat / 4 ∧ (selAddr ht).toNat / 4 < 0x418 then .resWrHigh (selAddr ht) wdata
        else .rsvdWr (selAddr ht) wdata) := by
  obtain ⟨hwin, haddr, hdecode⟩ := decode_of_windowMask p (width := .word) (k := 5) wdata (by decide) hc.1 h
  refine ⟨haddr, ?_⟩
  rw [hdecode, decodeAccess_window_word _ _ hwin, decodeRegWord_write_pastWritable wdata (by omega)]

/-- A word access to a reserved register. -/
theorem decode_reserved (hsize : selSize ht = 0b10#2) (ha : inReserved (selAddr ht) = true) :
    decode p (.ht ht wdata) = .ok (if selWe ht then .rsvdWr (selAddr ht) wdata else .rsvdRd (selAddr ht)) := by
  have hrange := (inReserved_iff _).1 ha
  rw [decode_access p (width := .word) wdata hsize, decodeAccess_window_word _ _ (inRegWindow_of_inReserved ha)]
  cases selWe ht
  · rw [decodeRegWord_read_reserved _ ha]
    rfl
  · rw [decodeRegWord_write_pastWritable wdata (by omega), if_neg (by omega), if_neg (by omega)]
    rfl

end

/-- Settles O34, by the row the mask and WE select. -/
theorem registerByteAccessesAreInert : Obligations.RegisterByteAccessesAreInert := fun s _ wdata =>
  ⟨fun h => ⟨decode_windowByte s.params (we := false) wdata h, rfl⟩,
    fun h => ⟨decode_windowByte s.params (we := true) wdata h, rfl⟩⟩

/-- Settles O32: STATUS is a register of its own, and each RES_WR row is one block of eight. -/
theorem readOnlyRegisterWritesAreIgnored : Obligations.ReadOnlyRegisterWritesAreIgnored := by
  refine fun s ht wdata => ⟨fun h => ⟨decode_register (we := true) (c := 0x1004#16) _ _ (by decide) h, rfl⟩,
    fun h => ⟨?_, rfl⟩, fun h => ⟨?_, rfl⟩⟩
  · obtain ⟨haddr, hdecode⟩ := decode_resultWrite s.params (c := 0x1020#16) wdata (by decide) h
    simp only [BitVec.toNat_ofNat, Nat.reducePow, Nat.reduceMod, Nat.reduceDiv] at haddr
    rw [hdecode, if_pos (by omega)]
  · obtain ⟨haddr, hdecode⟩ := decode_resultWrite s.params (c := 0x1040#16) wdata (by decide) h
    simp only [BitVec.toNat_ofNat, Nat.reducePow, Nat.reduceMod, Nat.reduceDiv] at haddr
    rw [hdecode, if_neg (by omega), if_pos (by omega)]

/-- Settles O33, by the address range and WE. -/
theorem reservedAndUnmappedAccessesAreInert : Obligations.ReservedAndUnmappedAccessesAreInert := by
  refine fun s ht wdata => ⟨fun hsize hrange => ?_, fun h01 h11 hbuffer hwindow => ?_⟩
  · have hdecode := decode_reserved s.params wdata hsize ((inReserved_iff _).2 hrange)
    exact ⟨fun hwe => ⟨by rw [hdecode, hwe]; rfl, rfl⟩, fun hwe => ⟨by rw [hdecode, hwe]; rfl, rfl⟩⟩
  · have hunmapped : isUnmapped s.params (selAddr ht) = true := by
      rw [isUnmapped_iff, ← Bool.not_eq_true (inRegWindow _), inRegWindow_iff]
      exact ⟨decide_eq_false (by omega), by omega⟩
    have hdecode := decode_access s.params wdata (selSize_eq_sizeCode h01 h11)
    rw [decodeAccess_unmapped _ _ _ hunmapped] at hdecode
    exact ⟨fun hwe => ⟨by rw [hdecode, hwe]; rfl, rfl⟩, fun hwe => ⟨by rw [hdecode, hwe]; rfl, rfl⟩⟩

/-! ### The result registers -/

/-- The mask drops ADDR[1:0] again. -/
theorem and_registerMask_or_low {P : Selector} (hP : P &&& 0x7FFFC#19 = P) (low : BitVec 2) :
    (P ||| low.setWidth 19) &&& 0x7FFFC#19 = P := by
  have hlow : low.setWidth 19 &&& 0x7FFFC#19 = 0#19 := by
    revert low
    decide
  rw [BitVec.and_or_distrib_right, hP, hlow, BitVec.or_zero]

/-- A word read of a result register is decoded by the register, whatever ADDR[1:0] (R154). -/
theorem decode_resultRead (p : Params) (c : Addr) (low : BitVec 2) (wdata : Word)
    (hc : NamedRegister false c ∧ selector 0b10#2 false c &&& 0x7FFFC#19 = selector 0b10#2 false c) :
    decode p (.ht (selector 0b10#2 false c ||| low.setWidth 19) wdata) = .ok (decodeRegWord false c wdata) :=
  decode_register p wdata hc.1 (and_registerMask_or_low hc.2 low)

/-- The fields of IP_INFO (R37). -/
theorem Results.ipInfoWord_fields (r : Results) :
    r.ipInfoWord.extractLsb' 0 4 = r.ipIhl ∧ r.ipInfoWord.extractLsb' 4 4 = r.ipVer ∧
    r.ipInfoWord.extractLsb' 8 8 = r.ipProto ∧ r.ipInfoWord.extractLsb' 16 6 = r.ipHlen ∧
    r.ipInfoWord.extractLsb' 22 10 = 0 := by
  unfold ipInfoWord
  simp only [BitVec.extractLsb'_append_eq_of_le, Nat.reduceLeDiff, Nat.reduceSub]
  exact ⟨BitVec.extractLsb'_append_eq_right, BitVec.extractLsb'_append_eq_right, BitVec.extractLsb'_append_eq_right,
    BitVec.extractLsb'_append_eq_right, BitVec.extractLsb'_eq_self⟩

/-- The fields of L4_INFO (R39). -/
theorem Results.l4InfoWord_fields (r : Results) :
    r.l4InfoWord.extractLsb' 0 2 = r.l4Kind.code ∧ r.l4InfoWord.extractLsb' 2 6 = 0 ∧
    r.l4InfoWord.extractLsb' 8 8 = r.unkProto ∧ r.l4InfoWord.extractLsb' 16 6 = r.l4Hlen ∧
    r.l4InfoWord.extractLsb' 22 2 = 0 ∧ r.l4InfoWord.extractLsb' 24 4 = r.tcpDoff ∧
    r.l4InfoWord.extractLsb' 28 4 = 0 := by
  unfold l4InfoWord
  simp only [BitVec.extractLsb'_append_eq_of_le, Nat.reduceLeDiff, Nat.reduceSub]
  exact ⟨BitVec.extractLsb'_append_eq_right, BitVec.extractLsb'_append_eq_right, BitVec.extractLsb'_append_eq_right,
    BitVec.extractLsb'_append_eq_right, BitVec.extractLsb'_append_eq_right, BitVec.extractLsb'_append_eq_right,
    BitVec.extractLsb'_eq_self⟩

theorem toNat_setWidth_highBits {n m : Nat} (v : BitVec n) (h : n ≤ 32 + m) (hm : m ≤ 32) :
    ((v.extractLsb' 32 m).setWidth 32).toNat = v.toNat / 2 ^ 32 := by
  rw [BitVec.toNat_setWidth_of_le hm, toNat_highBits v h]

/-- Settles O30, register by register: its address, and the layout of its word. -/
theorem resultReadsOfLinkAndNetworkFields : Obligations.ResultReadsOfLinkAndNetworkFields := fun s wdata low =>
  ⟨⟨_, decode_resultRead s.params 0x1020#16 low wdata (by decide), rfl, rfl, toNat_lowWord _⟩,
    ⟨_, decode_resultRead s.params 0x1024#16 low wdata (by decide), rfl, rfl, toNat_highBits _ (by decide)⟩,
    ⟨_, decode_resultRead s.params 0x1028#16 low wdata (by decide), rfl, rfl,
      toNat_setWidth_highBits _ (by decide) (by decide)⟩,
    ⟨_, decode_resultRead s.params 0x102C#16 low wdata (by decide), rfl, rfl, toNat_lowWord _⟩,
    ⟨_, decode_resultRead s.params 0x1030#16 low wdata (by decide), rfl, rfl,
      toNat_setWidth_highBits _ (by decide) (by decide)⟩,
    ⟨_, decode_resultRead s.params 0x1034#16 low wdata (by decide), rfl, rfl, toNat_lowWord _⟩,
    ⟨_, decode_resultRead s.params 0x1038#16 low wdata (by decide), rfl, rfl, s.results.ipInfoWord_fields⟩,
    ⟨_, decode_resultRead s.params 0x103C#16 low wdata (by decide), rfl, rfl, rfl⟩,
    ⟨_, decode_resultRead s.params 0x1040#16 low wdata (by decide), rfl, rfl, rfl⟩⟩

/-- Settles O31, register by register: its address, and the layout of its word. -/
theorem resultReadsOfTransportFields : Obligations.ResultReadsOfTransportFields := by
  intro s wdata low
  obtain ⟨hkind, hl4⟩ := s.results.l4InfoWord_fields
  have hcode : s.results.l4Kind.code =
      (match s.results.l4Kind with | .none => 0 | .tcp => 1 | .udp => 2 | .unknown => 3) := by
    cases s.results.l4Kind <;> rfl
  exact
    ⟨⟨_, decode_resultRead s.params 0x1044#16 low wdata (by decide), rfl, rfl, hkind.trans hcode, hl4⟩,
      ⟨_, decode_resultRead s.params 0x1048#16 low wdata (by decide), rfl, rfl, BitVec.extractLsb'_append_eq_left,
        BitVec.extractLsb'_append_eq_right⟩,
      ⟨_, decode_resultRead s.params 0x104C#16 low wdata (by decide), rfl, rfl, rfl⟩,
      ⟨_, decode_resultRead s.params 0x1050#16 low wdata (by decide), rfl, rfl, rfl⟩,
      ⟨_, decode_resultRead s.params 0x1054#16 low wdata (by decide), rfl, rfl, BitVec.extractLsb'_append_eq_left,
        BitVec.extractLsb'_append_eq_right⟩,
      ⟨_, decode_resultRead s.params 0x1058#16 low wdata (by decide), rfl, rfl, BitVec.extractLsb'_append_eq_right,
        BitVec.extractLsb'_append_eq_left⟩,
      ⟨_, decode_resultRead s.params 0x105C#16 low wdata (by decide), rfl, rfl,
        (BitVec.extractLsb'_setWidth_of_le (by decide)).trans BitVec.extractLsb'_eq_self,
        extractLsb'_above_setWidth _ (by decide)⟩⟩

end Sys2Proof.Machine
end

section
/-! PROOF. Events taken one after another (R62): a run over events that each have one outcome, whatever comes later. -/

namespace Sys2Proof.Machine

/-! ### One event -/

/-- `s` with other events still to come. -/
def State.withInputs (s : State) (later : List Event) : State := { s with inputs := later }

/-- `s` takes the event and becomes `t`, whatever comes later. -/
def Takes (s : State) (e : Event) (t : State) : Prop :=
  ∀ later, (s.withInputs later).takeEvent e = .next (t.withInputs later)

theorem takes_op {s t : State} {w : InstrWord} {i : Instr} (hd : decode s.params w = .ok i)
    (h : ∀ later, exec i (s.withInputs later) = .next (t.withInputs later)) : Takes s (.op w) t := by
  intro later
  have hd' : decode (s.withInputs later).params w = .ok i := hd
  simp only [State.takeEvent, hd', h]

theorem takes_hardwareReset (s : State) : Takes s .hardwareReset s.hardReset := fun _ => rfl

/-! ### Runs -/

theorem runEvents_nil (s : State) : s.runEvents [] = .next (s.withInputs []) := rfl

theorem Takes.runEvents_cons {s t : State} {e : Event} (h : Takes s e t) (events : List Event) :
    s.runEvents (e :: events) = t.runEvents events := by
  have hstep : step (s.withInputs (e :: events)) = .next (t.withInputs events) := h events
  calc s.runEvents (e :: events)
      = thenRun (step (s.withInputs (e :: events))) (runSteps events.length) := rfl
    _ = t.runEvents events := by rw [hstep]; rfl

/-! ### The host's word writes (R82) -/

theorem hostW32_eq_writeSel (a : Addr) (v : Word) : hostW32 a v = .op (writeSel .word a v) := by
  have hsel : a.setWidth 19 ||| 0x50000#19 = selector (sizeCode .word) true a := by
    rw [BitVec.or_comm, selector, BitVec.append_def, BitVec.setWidth'_eq]
    rfl
  rw [hostW32, hsel, writeSel]

/-- A word write to the register window. -/
theorem takes_writeReg {s t : State} {a : Addr} (v : Word) (ha : inRegWindow a = true)
    (h : ∀ later, exec (decodeRegWord true a v) (s.withInputs later) = .next (t.withInputs later)) :
    Takes s (hostW32 a v) t := by
  rw [hostW32_eq_writeSel]
  exact takes_op (decode_writeReg s.params v ha) h

section
variable {s : State}

theorem State.storeByte_withInputs (s : State) (a : Nat) (v : Byte) (later : List Event) :
    (s.withInputs later).storeByte a v = (s.storeByte a v).withInputs later := by
  by_cases h : a < s.params.maxFrame <;> simp [storeByte, withInputs, h]

theorem State.storeWord_withInputs (s : State) (w : Nat) (v : Word) (later : List Event) :
    (s.withInputs later).storeWord w v = (s.storeWord w v).withInputs later := by
  simp only [storeWord, storeByte_withInputs]

theorem takes_bufferWord {a : Addr} (v : Word) (hready : s.phase ≠ .busy) (ha : a.toNat < s.params.maxFrame) :
    Takes s (hostW32 a v) (s.storeWord (alignWord a).toNat v) := by
  rw [hostW32_eq_writeSel]
  refine takes_op (i := .bufWr32 a v) ?_ fun later => ?_
  · rw [decode_writeSel, decodeAccess_buffer_word _ _ (decide_eq_true ha)]
    rfl
  · rw [← s.storeWord_withInputs]
    exact congrArg Host.Outcome.next ((s.withInputs later).unlessBusy_ready _ hready)

theorem takes_lenWrite (v : Word) (hready : s.phase ≠ .busy) :
    Takes s (hostW32 0x1008#16 v) { s with frameLen := v.extractLsb' 0 16 } :=
  takes_writeReg v (by decide) fun later =>
    congrArg Host.Outcome.next ((s.withInputs later).unlessBusy_ready _ hready)

theorem takes_tsLoWrite (v : Word) (hready : s.phase ≠ .busy) :
    Takes s (hostW32 0x100C#16 v) { s with ts := s.ts.extractLsb' 32 32 ++ v } :=
  takes_writeReg v (by decide) fun later =>
    congrArg Host.Outcome.next ((s.withInputs later).unlessBusy_ready _ hready)

theorem takes_tsHiWrite (v : Word) (hready : s.phase ≠ .busy) :
    Takes s (hostW32 0x1010#16 v) { s with ts := v ++ s.ts.extractLsb' 0 32 } :=
  takes_writeReg v (by decide) fun later =>
    congrArg Host.Outcome.next ((s.withInputs later).unlessBusy_ready _ hready)

theorem takes_hostStart (hready : s.phase ≠ .busy) (hfits : s.frameLen.toNat ≤ s.params.maxFrame) :
    Takes s hostStart (s.startDecode false) :=
  takes_writeReg 0x1#32 (by decide) fun later =>
    exec_ctrlStart_of_ready (s := s.withInputs later) false hready hfits

theorem takes_pollStatus (s : State) : Takes s pollStatus (s.returns s.statusWord) :=
  takes_op (decode_readReg s.params (a := 0x1004#16) (by decide)) fun _ => rfl

/-- A completion does not look at the events still to come. -/
theorem State.complete_withInputs (s : State) (later : List Event) :
    (s.withInputs later).complete = s.complete.withInputs later := by
  have hdecode : decodeFrame (s.withInputs later).byteAt (s.withInputs later).frameLen.toNat (s.withInputs later).ts =
      decodeFrame s.byteAt s.frameLen.toNat s.ts := rfl
  unfold complete
  rw [hdecode]
  cases decodeFrame s.byteAt s.frameLen.toNat s.ts <;> rfl

theorem takes_engineEvent (hbusy : s.phase = .busy) : Takes s engineEvent s.complete :=
  takes_op (w := .engine .complete) (i := .engineComplete) rfl fun later => by
    rw [exec_engineComplete_of_busy (s := s.withInputs later) hbusy, s.complete_withInputs]

end

end Sys2Proof.Machine
end

section
/-! PROOF. LOADFRAME (R83): after it the frame buffer holds the frame and FRAME_LEN its length. -/

namespace Sys2Proof.Machine

/-- `s` after the words are stored, the first at address `a`. -/
def State.storeWords (s : State) (a : Nat) : List Word → State
  | [] => s
  | w :: rest => (s.storeWord a w).storeWords (a + 4) rest

theorem State.storeWord_params (s : State) (a : Nat) (w : Word) : (s.storeWord a w).params = s.params := by
  rw [storeWord_eq]

theorem State.storeWord_phase (s : State) (a : Nat) (w : Word) : (s.storeWord a w).phase = s.phase := by
  rw [storeWord_eq]

theorem State.storeWords_eq (s : State) (a : Nat) (words : List Word) :
    s.storeWords a words = { s with fb := (s.storeWords a words).fb } := by
  induction words generalizing s a with
  | nil => rfl
  | cons w rest ih =>
    rw [storeWords, ih (s.storeWord a w) (a + 4), s.storeWord_eq]

/-- The writes of LOADFRAME, in turn. -/
theorem runEvents_storeWords {s : State} {a : Nat} {words : List Word} (hready : s.phase ≠ .busy) (halign : a % 4 = 0)
    (hfits : a + 4 * words.length ≤ s.params.maxFrame) (events : List Event) :
    s.runEvents (storeWords a words ++ events) = (s.storeWords a words).runEvents events := by
  induction words generalizing s a with
  | nil => rfl
  | cons w rest ih =>
    rw [List.length_cons] at hfits
    have hlimit := maxFrame_le s.params
    have haddr : (BitVec.ofNat 16 a).toNat = a := by
      rw [BitVec.toNat_ofNat]
      omega
    have hw : (alignWord (BitVec.ofNat 16 a)).toNat = a := by
      rw [alignWord_toNat, haddr]
      omega
    have htakes := takes_bufferWord (a := BitVec.ofNat 16 a) w hready (by omega)
    rw [hw] at htakes
    rw [storeWords, List.cons_append, htakes.runEvents_cons, State.storeWords]
    exact ih (by rwa [s.storeWord_phase]) (by omega) (by rw [s.storeWord_params]; omega)

/-- What the stored words leave below them. -/
theorem State.read_storeWords_below {s : State} {a x : Nat} {words : List Word}
    (hfits : a + 4 * words.length ≤ s.params.maxFrame) (hx : x < a) :
    Memory.read (s.storeWords a words).fb x = Memory.read s.fb x := by
  induction words generalizing s a with
  | nil => rfl
  | cons w rest ih =>
    rw [List.length_cons] at hfits
    rw [storeWords, ih (by rw [s.storeWord_params]; omega) (by omega), s.read_storeWord_other w (by omega) (.inl hx)]

/-- Byte i of the stored words is lane i % 4 of word i / 4 (R53). -/
theorem State.read_storeWords {s : State} {a i : Nat} {words : List Word}
    (hfits : a + 4 * words.length ≤ s.params.maxFrame) (hi : i < 4 * words.length) :
    Memory.read (s.storeWords a words).fb (a + i) = words[i / 4]?.map (lane · (i % 4)) := by
  induction words generalizing s a i with
  | nil => exact absurd hi (Nat.not_lt_zero i)
  | cons w rest ih =>
    rw [List.length_cons] at hfits hi
    have hrest : a + 4 + 4 * rest.length ≤ (s.storeWord a w).params.maxFrame := by
      rw [s.storeWord_params]
      omega
    rw [storeWords]
    by_cases hlow : i < 4
    · rw [read_storeWords_below hrest (by omega), s.read_storeWord_lane w (by omega) hlow, Nat.div_eq_of_lt hlow,
        Nat.mod_eq_of_lt hlow]
      rfl
    · obtain ⟨j, rfl⟩ : ∃ j, i = 4 + j := ⟨i - 4, by omega⟩
      rw [← Nat.add_assoc, ih hrest (by omega), show (4 + j) / 4 = j / 4 + 1 by omega, Nat.add_mod_left,
        List.getElem?_cons_succ]

theorem length_frameWords (frame : List Byte) : (frameWords frame).length = (frame.length + 3) / 4 := by
  induction frame using frameWords.induct with
  | case1 | case2 | case3 | case4 => simp [frameWords]
  | case5 b0 b1 b2 b3 rest ih =>
    rw [frameWords, List.length_cons, ih]
    simp only [List.length_cons]
    omega

/-- The first word's lanes are its four bytes. -/
theorem lane_packLanes_cons (b0 b1 b2 b3 : Byte) (words : List Word) {i : Nat} (hi : i < 4) :
    (packLanes b0 b1 b2 b3 :: words)[i / 4]?.map (lane · (i % 4)) = [b0, b1, b2, b3][i]? := by
  have hlane := lane_packLanes (fun k => [b0, b1, b2, b3].getD k 0) hi
  rw [Nat.div_eq_of_lt hi, Nat.mod_eq_of_lt hi]
  exact (congrArg some (hlane.trans (List.getD_eq_getElem _ _ hi))).trans (List.getElem?_eq_getElem hi).symm

/-- The lanes of LOADFRAME's words are the frame's bytes (R83). -/
theorem lane_frameWords {frame : List Byte} {i : Nat} (hi : i < frame.length) :
    (frameWords frame)[i / 4]?.map (lane · (i % 4)) = frame[i]? := by
  induction frame using frameWords.induct generalizing i with
  | case1 => exact absurd hi (Nat.not_lt_zero i)
  | case2 | case3 | case4 =>
    rw [frameWords, lane_packLanes_cons _ _ _ _ _ (hi.trans (by simp))]
    exact List.getElem?_append_left hi
  | case5 b0 b1 b2 b3 rest ih =>
    rw [frameWords]
    by_cases hlow : i < 4
    · rw [lane_packLanes_cons _ _ _ _ _ hlow]
      exact (List.getElem?_append_left (l₂ := rest) hlow).symm
    · obtain ⟨j, rfl⟩ : ∃ j, i = j + 4 := ⟨i - 4, by omega⟩
      rw [Nat.add_div_right _ (by decide), Nat.add_mod_right]
      simp only [List.length_cons] at hi
      exact ih (by omega)

end Sys2Proof.Machine
end

section
/-! PROOF. WAITDONE and the entry point decode(frame, captured_at) (R83, R161, R203). -/

namespace Sys2Proof.Machine

/-! ### One poll -/

/-- `s` after `R32 STATUS` as the last event. -/
def State.polled (s : State) : State := { s with rdata := s.statusWord, inputs := [] }

theorem runEvents_pollStatus (s : State) : s.runEvents [pollStatus] = .next s.polled :=
  (takes_pollStatus s).runEvents_cons []

/-- The two low bits of STATUS are STATE (R31). -/
theorem stillBusy_statusWord (s : State) : stillBusy s.statusWord = decide (s.phase = .busy) := by
  have hcode : s.statusWord &&& 0x3#32 = 1#32 ↔ s.phase.code = 1#2 := by
    rw [and_word_3, ← s.statusWord_fields.1, ← BitVec.toNat_inj, BitVec.extractLsb'_toNat]
    rfl
  rw [stillBusy, Bool.eq_iff_iff, beq_iff_eq, hcode, decide_eq_true_iff]
  cases s.phase <;> decide

theorem stillBusy_polled_of_busy {s : State} (hbusy : s.phase = .busy) : stillBusy s.polled.rdata = true :=
  (stillBusy_statusWord s).trans (decide_eq_true hbusy)

theorem stillBusy_polled_of_ready {s : State} (hready : s.phase ≠ .busy) : stillBusy s.polled.rdata = false :=
  (stillBusy_statusWord s).trans (decide_eq_false hready)

/-- A completion after a poll is the completion without it: neither rdata nor the events are looked at. -/
theorem State.polled_complete_polled (s : State) : s.polled.complete.polled = s.complete.polled := by
  have h : s.polled.complete = (s.complete.withUnseen EngineVars.cleared s.statusWord).withInputs [] := by
    rw [← s.complete_withUnseen s.engine, ← State.complete_withInputs]
    rfl
  rw [h]
  rfl

/-! ### WAITDONE -/

/-- WAITDONE ends with the poll that sees a block that is not BUSY. -/
theorem waitDone_of_ready {s t : State} {events : List Event} (later : List (List Event))
    (h : s.runEvents (events ++ [pollStatus]) = .next t.polled) (hready : t.phase ≠ .busy) :
    waitDone (events :: later) s = .next t.polled := by
  rw [waitDone, h, thenRun_next, stillBusy_polled_of_ready hready]
  rfl

/-- A poll of a BUSY block with no event before it. -/
theorem waitDone_nil_cons_of_busy {s : State} (later : List (List Event)) (hbusy : s.phase = .busy) :
    waitDone ([] :: later) s = waitDone later s.polled := by
  rw [waitDone, List.nil_append, runEvents_pollStatus, thenRun_next, stillBusy_polled_of_busy hbusy]
  rfl

theorem runEvents_complete_poll {s : State} (hbusy : s.phase = .busy) :
    s.runEvents [engineEvent, pollStatus] = .next s.complete.polled := by
  rw [(takes_engineEvent hbusy).runEvents_cons, runEvents_pollStatus]

/-- Past the list fairness completes the decode between two polls (log 12). -/
theorem waitDone_nil_of_busy {s : State} (hbusy : s.phase = .busy) : waitDone [] s = .next s.complete.polled := by
  rw [waitDone, runEvents_pollStatus, thenRun_next, stillBusy_polled_of_busy hbusy, ← s.polled_complete_polled]
  exact runEvents_complete_poll hbusy

theorem waitDone_nil_of_ready {s : State} (hready : s.phase ≠ .busy) : waitDone [] s = .next s.polled := by
  rw [waitDone, runEvents_pollStatus, thenRun_next, stillBusy_polled_of_ready hready]
  rfl

/-- Wherever the completion comes, WAITDONE of a BUSY block ends right after it. -/
theorem waitDone_of_busy {s : State} {between : List (List Event)} (hbusy : s.phase = .busy)
    (h : ∀ events ∈ between, events = [] ∨ events = [engineEvent]) :
    waitDone between s = .next s.complete.polled := by
  induction between generalizing s with
  | nil => exact waitDone_nil_of_busy hbusy
  | cons events later ih =>
    rcases h events List.mem_cons_self with rfl | rfl
    · rw [waitDone_nil_cons_of_busy later hbusy,
        ih (s := s.polled) hbusy fun events hevents => h events (List.mem_cons_of_mem _ hevents),
        s.polled_complete_polled]
    · exact waitDone_of_ready later (runEvents_complete_poll hbusy) (by rw [complete_phase]; decide)

/-- A hardware reset before a later poll ends WAITDONE (R190). -/
theorem waitDone_hardwareReset {s : State} (polls : Nat) (later : List (List Event)) (hbusy : s.phase = .busy) :
    waitDone (List.replicate polls [] ++ [.hardwareReset] :: later) s = .next s.hardReset.polled := by
  induction polls generalizing s with
  | zero =>
    exact waitDone_of_ready later
      (((takes_hardwareReset s).runEvents_cons _).trans (runEvents_pollStatus s.hardReset)) nofun
  | succ polls ih =>
    rw [List.replicate_succ, List.cons_append, waitDone_nil_cons_of_busy _ hbusy, ih (s := s.polled) hbusy]
    rfl

/-! ### LOADFRAME, SETTS and START -/

/-- `s` after `LOADFRAME` (R83). -/
def State.withFrame (s : State) (frame : List Byte) : State :=
  { s.storeWords 0 (frameWords frame) with frameLen := BitVec.ofNat 16 frame.length }

/-- `s` when the decode of `frame` begins. -/
def State.loaded (s : State) (frame : List Byte) (ts : BitVec 64) : State :=
  { s.withFrame frame with ts := ts }.startDecode false

/-- The last word of a frame in the buffer is in the buffer: MAX_FRAME is a multiple of 4 (R83). -/
theorem frameWords_fit {p : Params} {frame : List Byte} (hfits : frame.length ≤ p.maxFrame) :
    0 + 4 * (frameWords frame).length ≤ p.maxFrame := by
  rw [Nat.zero_add, length_frameWords]
  by_cases hempty : frame.length = 0
  · rw [hempty]
    exact Nat.zero_le _
  · have hlast := alignedWord_in_buffer p (a := frame.length - 1) (by omega)
    omega

theorem runEvents_setTs {s : State} (ts : BitVec 64) (hready : s.phase ≠ .busy) (events : List Event) :
    s.runEvents (setTs ts ++ events) = { s with ts := ts }.runEvents events := by
  have hlow := takes_tsLoWrite (ts.extractLsb' 0 32) hready
  have hhigh := takes_tsHiWrite (s := { s with ts := s.ts.extractLsb' 32 32 ++ ts.extractLsb' 0 32 })
    (ts.extractLsb' 32 32) hready
  have hhalves : ts.extractLsb' 32 32 ++ ts.extractLsb' 0 32 = ts := BitVec.extractLsb'_append_extractLsb'
  simp only [BitVec.extractLsb'_append_eq_right, hhalves] at hhigh
  rw [setTs, List.cons_append, hlow.runEvents_cons, List.singleton_append, hhigh.runEvents_cons]

section
variable {s : State} {frame : List Byte} (ts : BitVec 64)

theorem withFrame_phase : (s.withFrame frame).phase = s.phase := by
  rw [State.withFrame, s.storeWords_eq]

theorem withFrame_params : (s.withFrame frame).params = s.params := by
  rw [State.withFrame, s.storeWords_eq]

theorem withFrame_frameLen_toNat (hfits : frame.length ≤ s.params.maxFrame) :
    (s.withFrame frame).frameLen.toNat = frame.length := by
  have hlimit := maxFrame_le s.params
  exact Nat.mod_eq_of_lt (by omega)

theorem runEvents_loadFrame (hready : s.phase ≠ .busy) (hfits : frame.length ≤ s.params.maxFrame)
    (events : List Event) : s.runEvents (loadFrame frame ++ events) = (s.withFrame frame).runEvents events := by
  have hlen : (BitVec.ofNat 32 frame.length).extractLsb' 0 16 = BitVec.ofNat 16 frame.length := by
    rw [← BitVec.setWidth_eq_extractLsb' (by decide), BitVec.setWidth_ofNat_of_le (by decide)]
  have hlenWrite := takes_lenWrite (s := s.storeWords 0 (frameWords frame)) (BitVec.ofNat 32 frame.length)
    (by rwa [s.storeWords_eq])
  rw [hlen] at hlenWrite
  rw [loadFrame, List.append_assoc, runEvents_storeWords hready rfl (frameWords_fit hfits), List.singleton_append,
    hlenWrite.runEvents_cons, State.withFrame]

/-- The writes before the START leave the frame, its length and the timestamp. -/
theorem runEvents_loaded (hready : s.phase ≠ .busy) (hfits : frame.length ≤ s.params.maxFrame) :
    s.runEvents (loadFrame frame ++ setTs ts ++ [hostStart]) = .next ((s.loaded frame ts).withInputs []) := by
  have hready' : (s.withFrame frame).phase ≠ .busy := by rwa [withFrame_phase]
  have hstart := takes_hostStart (s := { s.withFrame frame with ts := ts }) hready'
    (by rw [withFrame_params, withFrame_frameLen_toNat hfits]; exact hfits)
  rw [List.append_assoc, runEvents_loadFrame hready hfits, runEvents_setTs ts hready', hstart.runEvents_cons,
    runEvents_nil, State.loaded]

/-- The buffer holds the frame. -/
theorem read_loaded (hfits : frame.length ≤ s.params.maxFrame) {i : Nat} (hi : i < frame.length) :
    Memory.read (s.loaded frame ts).fb i = frame[i]? := by
  have hread := State.read_storeWords (s := s) (i := i) (frameWords_fit hfits) (by rw [length_frameWords]; omega)
  rw [Nat.zero_add, lane_frameWords hi] at hread
  exact hread

/-- The engine decodes the frame's own bytes. -/
theorem decodeFrame_loaded (hfits : frame.length ≤ s.params.maxFrame) :
    decodeFrame (s.loaded frame ts).byteAt (s.loaded frame ts).frameLen.toNat (s.loaded frame ts).ts =
      decodeFrame (fun i => frame.getD i 0) frame.length ts := by
  have hlen : (s.loaded frame ts).frameLen.toNat = frame.length := withFrame_frameLen_toNat hfits
  rw [hlen]
  refine decodeFrame_eq_of_sameFrame ts fun i hi => State.byteAt_written _ ?_
  rw [read_loaded ts hfits hi, List.getElem?_eq_getElem hi, List.getD_eq_getElem _ _ hi]

theorem decodeCall_eq (between : List (List Event)) (hready : s.phase ≠ .busy)
    (hfits : frame.length ≤ s.params.maxFrame) :
    decodeCall frame ts between s = waitDone between ((s.loaded frame ts).withInputs []) := by
  rw [decodeCall, runEvents_loaded ts hready hfits, thenRun_next]

end

/-- A header length fails at IPV4 or TCP only (R170). -/
theorem FailsWith.layer_of_invalidLength {b : Nat → Byte} {n : Nat} {l : Layer}
    (h : FailsWith b n .invalidHeaderLength l) : l = .ipv4 ∨ l = .tcp := by
  cases l with
  | eth | udp => exact h.elim
  | ipv4 => exact .inl rfl
  | tcp => exact .inr rfl

/-- The call with the engine's completion anywhere between the polls. -/
theorem decodeCall_completes {s : State} {frame : List Byte} (ts : BitVec 64) {between : List (List Event)}
    (hready : s.phase ≠ .busy) (hfits : frame.length ≤ s.params.maxFrame)
    (h : ∀ events ∈ between, events = [] ∨ events = [engineEvent]) :
    decodeCall frame ts between s = .next (s.loaded frame ts).complete.polled := by
  rw [decodeCall_eq ts between hready hfits, waitDone_of_busy rfl h, State.complete_withInputs]
  rfl

/-- The call with a hardware reset before one of its polls. -/
theorem decodeCall_reset {s : State} {frame : List Byte} (ts : BitVec 64) (polls : Nat) (later : List (List Event))
    (hready : s.phase ≠ .busy) (hfits : frame.length ≤ s.params.maxFrame) :
    decodeCall frame ts (List.replicate polls [] ++ [.hardwareReset] :: later) s =
      .next (s.loaded frame ts).hardReset.polled := by
  rw [decodeCall_eq ts _ hready hfits,
    waitDone_hardwareReset (s := (s.loaded frame ts).withInputs []) polls later rfl]
  rfl

theorem registersZero_hardReset_polled (s : State) : RegistersZero s.hardReset.polled :=
  ⟨rfl, s.statusWord_hardReset, rfl, rfl, rfl, rfl⟩

/-- Settles O59: the call ends with the last poll after the completion's outcome, or after the reset's. -/
theorem decodeEntryPoint : Obligations.DecodeEntryPoint := by
  refine fun s hready => ⟨fun frame ts hfits => ⟨fun between hbetween => ?_, fun polls later => ?_⟩, fun later => ?_⟩
  · have hdecode := decodeFrame_loaded (s := s) ts hfits
    have hphase := complete_phase (s.loaded frame ts)
    refine ⟨_, decodeCall_completes ts hready hfits hbetween, ⟨rfl, fun h => nomatch hphase.symm.trans h⟩, rfl,
      fun i hi => ?_, fun p hp => ?_, fun k l hfail => ?_⟩
    · exact (congrArg (Memory.read · i) (complete_fb _)).trans (read_loaded ts hfits hi)
    · rw [complete_of_ok (hdecode.trans hp)]
      exact ⟨State.statusWord_publish (s.loaded frame ts) p.results, rfl⟩
    · rw [complete_of_fail (hdecode.trans hfail)]
      refine ⟨rfl, rfl, rfl, rfl, ?_⟩
      rintro rfl
      exact (decodeFrame_failsWith hfail).layer_of_invalidLength
  · exact ⟨_, decodeCall_reset ts polls later hready hfits, ⟨rfl, nofun⟩, registersZero_hardReset_polled _,
      State.statusWord_hardReset _⟩
  · exact ⟨waitDone_nil_of_ready hready, waitDone_of_ready (events := []) later (runEvents_pollStatus s) hready⟩

end Sys2Proof.Machine
end

section
/-! PROOF. The failure table of R170 in the order of R174: each row's condition makes DECODE fail as the row says, so a
completion records the table's failure and no other. -/

namespace Sys2Proof.Machine

section

variable {b : Nat → Byte} {n : Nat} {k : ErrKind} {l : Layer}

/-- With an IPv4 header that fits, the failure of the dispatched transport decoder is DECODE's (R120, R127). -/
theorem decodeFrame_of_dispatch_fail (ts : BitVec 64) (hip : IpHeaderFits b n)
    (e : dispatch b (b 23) (frameL4 b) (n - frameL4 b) = .fail k l) : decodeFrame b n ts = .fail k l := by
  obtain ⟨h34, h5, hle⟩ := hip
  rw [decodeFrame_of_headers ts (decEth_of_fits (by omega)) (decIpv4_of_fits (by omega) h5 hle)]
  simp only [scaleWords_lowNibble_ihl]
  exact andThen_eq_fail.2 (.inl e)

theorem decodeFrame_of_tcp_fail (ts : BitVec 64) (hip : IpHeaderFits b n) (h6 : b 23 = 6#8)
    (e : decTcp b (frameL4 b) (n - frameL4 b) = .fail k l) : decodeFrame b n ts = .fail k l :=
  decodeFrame_of_dispatch_fail ts hip ((dispatch_of_tcp h6 _ _).trans (dispatchTcp_of_fail e))

theorem decodeFrame_of_udp_fail (ts : BitVec 64) (hip : IpHeaderFits b n) (h17 : b 23 = 17#8)
    (e : decUdp b (frameL4 b) (n - frameL4 b) = .fail k l) : decodeFrame b n ts = .fail k l :=
  decodeFrame_of_dispatch_fail ts hip ((dispatch_of_udp h17 _ _).trans (dispatchUdp_of_fail e))

/-- The six rows of the table, one by one (R170). -/
theorem FailsWith.decodeFrame_eq (ts : BitVec 64) (h : FailsWith b n k l) : decodeFrame b n ts = .fail k l :=
  match k, l, h with
  | .truncatedFrame, .eth, h14 => decodeFrame_of_eth_fail ts (decEth_of_short h14)
  | .truncatedFrame, .ipv4, ⟨h14, hm⟩ => decodeFrame_of_ip_fail ts (decEth_of_fits h14) (decIpv4_of_short hm)
  | .invalidHeaderLength, .ipv4, ⟨h34, hlen⟩ =>
    decodeFrame_of_ip_fail ts (decEth_of_fits (by omega)) (decIpv4_of_badLength (by omega) hlen)
  | .truncatedFrame, .tcp, ⟨hip, h6, hr⟩ => decodeFrame_of_tcp_fail ts hip h6 (decTcp_of_short hr)
  | .invalidHeaderLength, .tcp, ⟨hip, h6, hr, hlen⟩ => decodeFrame_of_tcp_fail ts hip h6 (decTcp_of_badLength hr hlen)
  | .truncatedFrame, .udp, ⟨hip, h17, hr⟩ => decodeFrame_of_udp_fail ts hip h17 (decUdp_of_short hr)

/-- DECODE fails exactly as the table says (R170, R174). -/
theorem decodeFrame_eq_fail_iff (ts : BitVec 64) : decodeFrame b n ts = .fail k l ↔ FailsWith b n k l :=
  ⟨decodeFrame_failsWith, FailsWith.decodeFrame_eq ts⟩

end

/-- A completion records a kind and a layer exactly when DECODE fails with them (R129). -/
theorem complete_records_iff (s : State) (k : ErrKind) (l : Layer) :
    (s.complete.ok = false ∧ s.complete.err = some k ∧ s.complete.layer = some l) ↔
      decodeFrame s.byteAt s.frameLen.toNat s.ts = .fail k l := by
  cases e : decodeFrame s.byteAt s.frameLen.toNat s.ts with
  | ok p => simp [complete_of_ok e]
  | fail k' l' => simp [complete_of_fail e]

/-- A completion succeeds exactly when DECODE fails in no way (R129). -/
theorem complete_ok_iff (s : State) :
    s.complete.ok = true ↔ ∀ k l, decodeFrame s.byteAt s.frameLen.toNat s.ts ≠ .fail k l := by
  cases e : decodeFrame s.byteAt s.frameLen.toNat s.ts with
  | ok p => simp [complete_of_ok e]
  | fail k l => simp [complete_of_fail e]

/-- Where a completion records a failure, STATUS carries its code numbers (R31, R79). -/
theorem statusWord_complete_of_recorded {s : State} {k : ErrKind} {l : Layer} (hk : s.complete.err = some k)
    (hl : s.complete.layer = some l) : s.complete.statusWord.toNat = 2 + 16 * k.number + 256 * l.number := by
  rcases complete_cases s with ⟨p, -, e⟩ | ⟨k', l', -, e⟩ <;> rw [e] at hk hl ⊢
  · cases hk
  · cases hk
    cases hl
    exact s.statusWord_takeFailure_toNat k l

/-- A completion that fails publishes no result (R28). -/
theorem complete_results_of_not_ok {s : State} (h : s.complete.ok = false) : s.complete.results = Results.cleared := by
  rcases complete_cases s with ⟨p, -, e⟩ | ⟨k, l, -, e⟩ <;> rw [e] at h ⊢
  · cases h
  · rfl

/-- Settles O45: a completion records what DECODE fails with, and DECODE fails exactly as the table says. -/
theorem failureTableIsExact : Obligations.FailureTableIsExact := by
  refine fun s hbusy => ⟨s.complete, exec_engineComplete_of_busy hbusy, fun k l => ?_, ?_,
    fun k l => statusWord_complete_of_recorded, fun hfail => ?_⟩
  · exact (decodeFrame_eq_fail_iff s.ts).symm.trans (complete_records_iff s k l).symm
  · simp only [complete_ok_iff, ne_eq, decodeFrame_eq_fail_iff]
  · have hframe := complete_frame s
    rwa [complete_results_of_not_ok hfail, hfail] at hframe

end Sys2Proof.Machine
end

section
/-! PROOF. A platform's instances share nothing (R182, R204): a move leaves the other instances as they are, and the moves
of two instances commute. -/

namespace Sys2Proof.Machine

namespace Platform

variable {p q : Platform} {i j : Nat}

/-- A platform is its instances. -/
theorem ext_instances (h : p.instances = q.instances) : p = q := by
  cases p
  cases q
  cases h
  rfl

theorem set_comm (p : Platform) (s t : State) (hij : i ≠ j) : (p.set i s).set j t = (p.set j t).set i s :=
  ext_instances (by simp only [instances_set, List.set_comm s t hij])

theorem stepAt_of_none (h : p.instances[i]? = none) : p.stepAt i = .next p := by
  rw [stepAt, h]

theorem stepAt_of_step {s t : State} (hs : p.instances[i]? = some s) (ht : step s = .next t) :
    p.stepAt i = .next (p.set i t) := by
  simp only [stepAt, hs, ht]

/-- A move of one instance leaves every other instance (R182). -/
theorem stepAt_getElem?_of_ne (h : p.stepAt i = .next q) (hij : i ≠ j) : q.instances[j]? = p.instances[j]? := by
  rcases stepAt_cases h with ⟨-, rfl⟩ | ⟨s, t, -, -, rfl⟩
  · rfl
  · rw [instances_set, List.getElem?_set_ne hij]

/-- A move keeps the number of instances (R9). -/
theorem stepAt_length (h : p.stepAt i = .next q) : q.instances.length = p.instances.length := by
  rcases stepAt_cases h with ⟨-, rfl⟩ | ⟨s, t, -, -, rfl⟩
  · rfl
  · rw [instances_set, List.length_set]

/-- The moves of two instances commute (R182, R204). -/
theorem stepAt_comm {r : Platform} (hij : i ≠ j) (hi : p.stepAt i = .next q) (hj : q.stepAt j = .next r) :
    ∃ q', p.stepAt j = .next q' ∧ q'.stepAt i = .next r := by
  have hother := stepAt_getElem?_of_ne hi hij
  rcases stepAt_cases hj with ⟨hnone, rfl⟩ | ⟨u, v, hu, huv, rfl⟩
  · exact ⟨p, stepAt_of_none (hother ▸ hnone), hi⟩
  have hpj := stepAt_of_step (hother ▸ hu) huv
  have hsame := stepAt_getElem?_of_ne hpj hij.symm
  refine ⟨p.set j v, hpj, ?_⟩
  rcases stepAt_cases hi with ⟨hnone, rfl⟩ | ⟨s, t, hs, hst, rfl⟩
  · exact stepAt_of_none (hsame.trans hnone)
  · rw [stepAt_of_step (hsame.trans hs) hst, set_comm p t v hij]

end Platform

/-- Settles O60: a move reads and writes its own instance only. -/
theorem instancesShareNothing : Obligations.InstancesShareNothing := fun _ _ _ _ hi hij =>
  ⟨Platform.stepAt_getElem?_of_ne hi hij, Platform.stepAt_length hi, fun _ hj => Platform.stepAt_comm hij hi hj⟩

end Sys2Proof.Machine
end

section
/-! PROOF. The block after a reset (R190, R191), and what of its results and inputs an operation leaves, by STATE (R196,
R197, R199). -/

namespace Sys2Proof.Machine

/-! ### The sixteen result registers -/

/-- The words of the result registers, by rising address (R29, R34 to R44). -/
def Results.words (r : Results) : List Word :=
  [r.resTsLoWord, r.resTsHiWord, r.dstMacHiWord, r.dstMacLoWord, r.srcMacHiWord, r.srcMacLoWord, r.ipInfoWord, r.srcIp,
    r.dstIp, r.l4InfoWord, r.portsWord, r.tcpSeq, r.tcpAck, r.udpLenCsumWord, r.region0Word, r.region1Word]

/-- With every result field 0, every result register reads 0 (R28). -/
theorem Results.words_cleared : Results.cleared.words = List.replicate 16 0#32 := rfl

/-- The reads of the result registers, by rising address (R154). -/
def resultReads : List Instr :=
  [.resTsLoRd, .resTsHiRd, .dstMacHiRd, .dstMacLoRd, .srcMacHiRd, .srcMacLoRd, .ipInfoRd, .srcIpRd, .dstIpRd, .l4InfoRd,
    .portsRd, .tcpSeqRd, .tcpAckRd, .udpLenCsumRd, .region0Rd, .region1Rd]

/-- A result read returns the word at its place in the list, and does nothing else. -/
theorem exec_resultReads (s : State) :
    resultReads.map (exec · s) = s.results.words.map fun w => .next (s.returns w) := rfl

/-- A result read returns a result register's word, and does nothing else. -/
theorem exec_resultRead {i : Instr} (s : State) (hi : i ∈ resultReads) :
    ∃ w ∈ s.results.words, exec i s = .next (s.returns w) := by
  have hmem : exec i s ∈ s.results.words.map fun w => .next (s.returns w) :=
    exec_resultReads s ▸ List.mem_map_of_mem hi
  obtain ⟨w, hw, he⟩ := List.mem_map.1 hmem
  exact ⟨w, hw, he.symm⟩

/-- Settles O29: while BUSY the invariant has every result field 0. -/
theorem resultsReadZeroWhileBusy : Obligations.ResultsReadZeroWhileBusy := by
  intro s hinv hbusy i hi
  have hcleared : s.results = Results.cleared := hinv.noResult (by simp [hbusy])
  obtain ⟨w, hw, he⟩ := exec_resultRead s hi
  rw [hcleared, Results.words_cleared] at hw
  exact ⟨_, he, rfl, List.eq_of_mem_replicate hw⟩

/-! ### Hardware reset -/

theorem registersZero_hardReset (s : State) : RegistersZero s.hardReset :=
  ⟨rfl, s.statusWord_hardReset, rfl, rfl, rfl, rfl⟩

/-- A byte read of an unwritten buffer address returns a draw (R23, R142). -/
theorem exec_bufRd8_of_unwritten {s : State} {a : Addr} (ha : a.toNat < s.params.maxFrame)
    (hunwritten : Memory.read s.fb a.toNat = none) :
    exec (.bufRd8 a) s =
      .next ((s.returns ((Config.drawByte s.params.drawStream s.draws).setWidth 32)).useDraws 1) := by
  have hdraw : s.loadByte 0 a.toNat = Config.drawByte s.params.drawStream s.draws := by
    rw [s.loadByte_buffer 0 ha, s.bufferByte_unwritten 0 hunwritten, Nat.add_zero]
  rw [← hdraw]
  rfl

/-- Settles O9: the reset state is the hardware reset of itself, where no byte of the buffer is written. -/
theorem resetStateIsAsStated : Obligations.ResetStateIsAsStated :=
  ⟨registersZero_hardReset State.reset, rfl, rfl, rfl, rfl, rfl, rfl, rfl, rfl, rfl, rfl, rfl, rfl, rfl, rfl, rfl, rfl,
    rfl, fun _ ha => ⟨rfl, _, exec_bufRd8_of_unwritten ha rfl, rfl⟩⟩

/-- A host transaction of a legal SIZE has a next state right after a hardware reset: LEN is 0, so no START is refused. -/
theorem dutyKept_hardReset {ht : Selector} (s : State) (wdata : Word) (h01 : selSize ht ≠ 0b01#2)
    (h11 : selSize ht ≠ 0b11#2) : DutyKept s.hardReset (.op (.ht ht wdata)) :=
  ⟨h01, h11, fun _ _ => Nat.zero_le _⟩

/-- Settles O10: the next transaction is one whose duty is kept. -/
theorem hardwareResetFromAnyState : Obligations.HardwareResetFromAnyState := fun _ _ he =>
  ⟨_, step_hardwareReset he, registersZero_hardReset _, rfl, Memory.read_nil, rfl, rfl,
    exec_engineComplete_of_ready nofun, fun _ wdata rest hlater h01 h11 =>
    (stepCompletesExactlyOnKeptDuties _ _ rest hlater).2 (dutyKept_hardReset _ wdata h01 h11)⟩

/-! ### How long a result lasts (R197) -/

/-- An operation that writes neither STATUS nor IRQ_EN leaves the result fields, buffer writes included (R198). -/
theorem Effect.results_of_not_writesControl {i : Instr} {s t : State} (h : Effect i s t) (hi : writesControl i = false) :
    t.results = s.results := by
  cases h with
  | nothing | reply | evaluated | lenSet | tsSet | irqSet => rfl
  | stored8 a v => rw [s.storeByte_eq]
  | stored32 a v => rw [s.storeWord_eq]
  | softReset h | started _ h | completed h => subst h; cases hi

/-- Settles O25, by the instructions that write STATUS. -/
theorem resultsLastUntilStartOrReset : Obligations.ResultsLastUntilStartOrReset := by
  refine ⟨fun s t i h => ?_, fun s t later he h => by rw [step_hardwareReset_eq he h]; rfl⟩
  cases exec_controlled h with
  | kept hi _ =>
    obtain ⟨hsrst, hcomplete, hstart, -⟩ := ne_of_not_writesControl hi
    simp [hsrst, hcomplete, hstart, (exec_effect h).results_of_not_writesControl hi]
  | irqSet e => simp
  | startIgnored e hp => simp [hp]
  | started e hp => simp [hp]
  | reset => simp
  | completed hp => simp [hp]

/-! ### The input hazard (R199) -/

theorem next_unlessBusy_of_busy {s : State} (hbusy : s.phase = .busy) (f : State → State) :
    Host.Outcome.next (φ := Fault) (ρ := Refusal) (s.unlessBusy f) = .next s :=
  congrArg _ (s.unlessBusy_busy f hbusy)

/-- While BUSY no effect but a soft reset changes the decode's inputs, and none changes the buffer. -/
theorem Effect.inputs_frozen {i : Instr} {s t : State} (h : Effect i s t) (hbusy : s.phase = .busy) :
    t.fb = s.fb ∧ (i ≠ .ctrlSrst → t.frameLen = s.frameLen ∧ t.ts = s.ts) := by
  cases h with
  | nothing | reply | evaluated | irqSet => exact ⟨rfl, fun _ => ⟨rfl, rfl⟩⟩
  | stored8 _ _ _ hready | stored32 _ _ _ hready | lenSet _ _ hready | tsSet _ _ hready | started _ _ hready =>
    exact absurd hbusy hready
  | softReset hi => exact ⟨rfl, fun hne => absurd hi hne⟩
  | completed => exact ⟨s.complete_fb, fun _ => by rw [complete_frame]; exact ⟨rfl, rfl⟩⟩

/-- Settles O26: the five input writes are under the hazard, and so is every effect. -/
theorem inputsFrozenWhileBusy : Obligations.InputsFrozenWhileBusy := fun _ hbusy =>
  ⟨fun _ _ => next_unlessBusy_of_busy hbusy _, fun _ _ => next_unlessBusy_of_busy hbusy _,
    fun _ => next_unlessBusy_of_busy hbusy _, fun _ => next_unlessBusy_of_busy hbusy _,
    fun _ => next_unlessBusy_of_busy hbusy _, fun _ _ h => (exec_effect h).inputs_frozen hbusy⟩

end Sys2Proof.Machine
end
